-- ==== Sys2Proof/Word.lean ====
section
/-! DEFINITION. Word.lean: the bit vectors the manual itself treats as bits (00_scope, "Sizes" and "Addresses"). -/

namespace Sys2Proof

/-- A word is 32 bits and holds four bytes (00_scope, "Sizes"). -/
abbrev Word := BitVec 32

/-- A word address, link or local: bits 31..2 of the byte address, whose low two bits are not carried (R11, Table 9-2). -/
abbrev WordAddress := BitVec 30

/-- Four flags, one per byte of a word or per byte lane: byte enables, or lane parity bits. -/
abbrev Nibble := BitVec 4

/-- A requester class, 0 to 3. -/
abbrev ReqClass := BitVec 2

/-- A request tag or management tag, 0 to 31. -/
abbrev Tag := BitVec 5

end Sys2Proof
end

