-- ==== Sys2Proof/Syntax.lean ====
section
/-! DEFINITION. Syntax.lean: the commands of the block, one constructor for each row of spec/opcode_table.json.
The table gives the rows no operands; an operand here is what the manual says the event brings with it from outside. -/

namespace Sys2Proof

/-- Whose backoff timer expires: the Posted Write Queue head's or that of one of the 24 tracker entries (Table 5-1). -/
inductive BackoffItem where
  | head
  | entry (i : Fin 24)
  deriving DecidableEq, Repr

/-- The commands: an event on a pin, a packet received, an answer of the local bus, a timer's expiry, or a step that one
of the part's own blocks takes when its condition holds. -/
inductive Instr where
  /-- POWER_ON_RESET, R158. -/
  | powerOnReset
  /-- LINK_UP, R160. -/
  | linkUp
  /-- LOSS_OF_LINK_SIGNAL, R158. -/
  | lossOfLinkSignal
  /-- DOWNSTREAM_PACKET, R163: the words received, check word last (R178; log entry 5). `preferred` is the FREE tracker entry that
  an allocation takes if that one is FREE (R61 says "a FREE entry" and no more: log entry 6). -/
  | downstreamPacket (words : List Word) (preferred : Fin 24)
  /-- MGMT_READ, R145: the oldest WAITING slot is executed when it holds a MGMT_READ. -/
  | mgmtRead
  /-- MGMT_WRITE, R146: the same for a MGMT_WRITE. -/
  | mgmtWrite
  /-- HALT_ON_FATAL_ENABLE, R153: the same for a MGMT_WRITE that changes halt-on-fatal from disabled to enabled. -/
  | haltOnFatalEnable
  /-- OPEN, R150. -/
  | openPort
  /-- CLOSE, R151. -/
  | closePort
  /-- COMMIT, R25. -/
  | commit
  /-- DISCARD_STAGING, R24. -/
  | discardStaging
  /-- CLEAR_ERRORS, R122. -/
  | clearErrors
  /-- RESET_PART, R156. -/
  | resetPart
  /-- UNKNOWN_COMMAND_CODE, R155. -/
  | unknownCommandCode
  /-- RESET_PART_TAKES_EFFECT, R157. -/
  | resetPartTakesEffect
  /-- ARBITRATION_DECISION, R84. -/
  | arbitrationDecision
  /-- BUS_GRANT, R88. -/
  | busGrant
  /-- ACK_ANSWER, R93: the word on the local lanes and the lanes' parity bits, which a read takes. -/
  | ackAnswer (lanes : Word) (parity : Nibble)
  /-- RETRY_ANSWER, R95. -/
  | retryAnswer
  /-- ERROR_ANSWER, R97. -/
  | errorAnswer
  /-- LOCAL_ACCESS_TIMER_EXPIRY, R98. -/
  | localAccessTimerExpiry
  /-- BACKOFF_INTERVAL_EXPIRY, R96. -/
  | backoffIntervalExpiry (item : BackoffItem)
  /-- TRANSMIT_CHOICE, R171. -/
  | transmitChoice
  /-- RESPONSE_SENT, R71. -/
  | responseSent
  /-- MGMT_REPLY_SENT, R142. -/
  | mgmtReplySent
  /-- NOTICE_PORT_WRITE, R133: one write beat of another local master. -/
  | noticePortWrite (address : Word) (enables : Nibble) (lanes : Word) (parity : Nibble)
  /-- NOTICE_PORT_READ, R134: one read beat of another local master. -/
  | noticePortRead (address : Word)
  /-- UPSTREAM_TRANSMISSION_ENDS, R166. -/
  | upstreamTransmissionEnds
  deriving DecidableEq, Repr

end Sys2Proof
end

