-- ==== Sys2Proof/Decode.lean ====
section
/-! DEFINITION. Decode.lean: the commands that a word spells by the bits of spec/opcode_table.json. No row of that table
gives bits (the block has no instruction words; its commands are events), so no word spells one (log entry 20). The
packets of the module link are read by `Machine/Packet.lean`. -/

namespace Sys2Proof

/-- None of the 28 rows gives bits. -/
def decodeTableWord (_nbits _w : Nat) : Option Instr := none

end Sys2Proof
end

