-- ==== Sys2Proof/Config.lean ====
section
/-! DEFINITION. Config.lean: the numbers the manual fixes for every BG2240. The manual leaves no value of this block
open that a step would have to produce, so no free value stands here. -/

namespace Sys2Proof.Config

/-- R37: the Posted Write Queue holds 0 to 32 records. -/
def postedCapacity : Nat := 32

/-- R56: the Request Tracker holds 24 entries. -/
def nonPostedCapacity : Nat := 24

/-- R139: the Management Unit holds two slots. -/
def managementCapacity : Nat := 2

/-- R126: at most five LOCAL notices. -/
def localPlaces : Nat := 5

/-- R172: the notice skip count stands at 4 at most. -/
def skipLimit : Nat := 4

/-- Table 11-8, object 000H: device 2240H, vendor 5AH, revision 01H. -/
def identity : Word := 0x22405A01#32

/-- R162: the register starts at FFFFH. -/
def crcStart : BitVec 16 := 0xFFFF#16

/-- R162: the polynomial without its x^16 term. -/
def crcPolynomial : BitVec 16 := 0x1021#16

/-- Table 5-4: the local access timeout counts units of 16 local clocks. -/
def accessTimeoutUnit : Nat := 16

/-- Table 5-4: the retry backoff counts units of 8 local clocks. -/
def backoffUnit : Nat := 8

/-- Table 8-3, reset value of the local access timeout. -/
def accessTimeoutReset : BitVec 12 := 64#12

/-- Table 8-3, reset value of the retry limit. -/
def retryLimitReset : BitVec 4 := 8#4

/-- Table 8-3, reset value of the retry backoff. -/
def retryBackoffReset : BitVec 8 := 4#8

/-- Table 8-3, reset value of the fairness limit. -/
def fairnessReset : BitVec 4 := 4#4

/-- Table 8-3, reset value of the manager classes: class 0 alone. -/
def managersReset : Nibble := 1#4

end Sys2Proof.Config
end

