-- ==== Sys2Proof/Machine/Types.lean ====
section
/-! DEFINITION. Machine/Types.lean: the records that the blocks hold, as the tables of the manual list their fields. -/

namespace Sys2Proof.Machine

/-! ## Windows (Table 1-1) -/

/-- R5, Table 1-2. `invalid` is code 3, which names no arrangement. -/
inductive LaneSwap where
  | noSwap | swap16 | swap32 | invalid
  deriving DecidableEq, Repr

/-- R4: ordering of non-posted requests behind posted writes. -/
inductive WindowOrder where
  | strict | relaxed
  deriving DecidableEq, Repr

/-- R1, Table 1-1. The two bases are multiples of 4 KiB (R2), so only their address bits 31..12 are held. `rights` has the
read flag of class c at bit 2c and its write flag at bit 2c + 1 (Table 11-9). -/
structure WindowEntry where
  enabled         : Bool
  sizeCode        : BitVec 5
  linkBase        : BitVec 20
  translationBase : BitVec 20
  rights          : BitVec 8
  postingAllowed  : Bool
  order           : WindowOrder
  laneSwap        : LaneSwap
  burstAllowed    : Bool
  attr            : BitVec 4
  deriving DecidableEq, Repr

/-- R1: a bank holds 16 entries. -/
abbrev Bank := Vector WindowEntry 16

/-- Table 1-3: the reset value of every window entry. -/
def WindowEntry.reset : WindowEntry :=
  { enabled := false, sizeCode := 0, linkBase := 0, translationBase := 0, rights := 0, postingAllowed := false,
    order := .strict, laneSwap := .noSwap, burstAllowed := false, attr := 0 }

/-- R8: every entry at the value of Table 1-3. -/
def Bank.reset : Bank := Vector.replicate 16 WindowEntry.reset

/-- Table 11-7: the reasons of a refused commit. -/
inductive TableReason where
  | badSize | misalignedBase | misalignedTranslation | beyondSpace | badCode
  deriving DecidableEq, Repr

/-- R22. -/
inductive CommitState where
  | idle | draining
  deriving DecidableEq, Repr

/-- What R17 adds to a request whose window matched: its local address, the window's index and the copied fields. -/
structure Placement where
  localAddress : WordAddress
  index        : Fin 16
  laneSwap     : LaneSwap
  burstAllowed : Bool
  attr         : BitVec 4
  deriving DecidableEq, Repr

/-! ## Packets (Tables 9-2, 9-3, 11-1, 11-2) -/

/-- Table 11-1: the fields of a downstream header, as received. -/
structure Header where
  kindCode  : BitVec 4
  cls       : ReqClass
  tag       : Tag
  length    : BitVec 5
  firstMask : Nibble
  lastMask  : Nibble
  address   : WordAddress
  deriving DecidableEq, Repr

/-- Kinds of data requests (00_scope, Table 0-2). -/
inductive DataKind where
  | writePosted | writeConfirmed | read
  deriving DecidableEq, Repr

/-- Kinds of management requests. -/
inductive MgmtKind where
  | mgmtRead | mgmtWrite | mgmtCommand
  deriving DecidableEq, Repr

/-- Table 9-3: the six downstream kinds. -/
inductive DownstreamKind where
  | data (k : DataKind)
  | mgmt (k : MgmtKind)
  deriving DecidableEq, Repr

/-- R167: the three credit pools. -/
inductive Pool where
  | posted | nonPosted | management
  deriving DecidableEq, Repr

/-- A data request as the Link Port hands it over (R9). -/
structure DataRequest where
  kind        : DataKind
  cls         : ReqClass
  tag         : Tag
  linkAddress : WordAddress
  length      : Nat
  firstMask   : Nibble
  lastMask    : Nibble
  data        : List Word
  deriving DecidableEq, Repr

/-! ## Posted Write Queue and Request Tracker (Tables 3-1, 3-2, 4-1, 4-2) -/

/-- Table 3-2. -/
inductive RecordState where
  | queued | active | backoff
  deriving DecidableEq, Repr

/-- R38, Table 3-1. The record's window fields, index and local address are its placement. -/
structure WriteRecord where
  cls         : ReqClass
  linkAddress : WordAddress
  length      : Nat
  firstMask   : Nibble
  lastMask    : Nibble
  data        : List Word
  placement   : Placement
  generation  : BitVec 8
  progress    : Nat
  retryCount  : Nat
  state       : RecordState
  deriving DecidableEq, Repr

/-- Table 4-2. -/
inductive EntryState where
  | free | ordered | ready | active | backoff | complete
  deriving DecidableEq, Repr

/-- Kinds of non-posted requests; the kind decides the kind of the response. -/
inductive NonPostedKind where
  | read | writeConfirmed
  deriving DecidableEq, Repr

/-- Table 11-4: data response statuses. -/
inductive Status where
  | ok | unmapped | denied | refusedClosed | refusedHalted | targetError | timeout | retryLimit | dataParity
  deriving DecidableEq, Repr

/-- R56, Table 4-1. The local address and the window fields are absent for a request refused at decode. -/
structure TrackerEntry where
  state       : EntryState
  tag         : Tag
  cls         : ReqClass
  kind        : NonPostedKind
  linkAddress : WordAddress
  length      : Nat
  firstMask   : Nibble
  lastMask    : Nibble
  data        : List Word
  placement   : Option Placement
  order       : Option WindowOrder
  generation  : BitVec 8
  arrival     : BitVec 8
  writesAhead : Nat
  progress    : Nat
  retryCount  : Nat
  status      : Option Status
  orphan      : Bool
  deriving DecidableEq, Repr

/-- A FREE entry at reset: writes-ahead 0 and orphan "no" (R56). Its other fields carry no meaning; zero is the model's
choice (DESIGN CHOICE, log entry 7). -/
def TrackerEntry.reset : TrackerEntry :=
  { state := .free, tag := 0, cls := 0, kind := .read, linkAddress := 0, length := 0, firstMask := 0, lastMask := 0,
    data := [], placement := none, order := none, generation := 0, arrival := 0, writesAhead := 0, progress := 0,
    retryCount := 0, status := none, orphan := false }

/-! ## Local Bus Engine (Table 5-1) -/

/-- R83. -/
inductive EngineState where
  | idle | requesting | owning
  deriving DecidableEq, Repr

/-- Table 5-1: the current item, when there is one. -/
inductive CurrentItem where
  | head
  | entry (i : Fin 24)
  deriving DecidableEq, Repr

/-- R89: direction of a cycle. -/
inductive Direction where
  | read | write
  deriving DecidableEq, Repr

/-- Table 5-1: the word position and direction of the beat awaiting an answer. -/
structure Beat where
  position  : Nat
  direction : Direction
  deriving DecidableEq, Repr

/-- What the part drives on the shared local bus while it owns it (R89, R90, R92, R99; log entry 12): the address phase of the cycle,
and the enables, write data and lane parity of the beat in progress, all on the local lanes. `parity` holds a bit for each
lane the part drives one on, and nothing for the other lanes (log entry 11). -/
structure Cycle where
  address   : WordAddress
  direction : Direction
  attr      : BitVec 4
  beats     : Nat
  enables   : Nibble
  writeData : Option Word
  parity    : Vector (Option Bool) 4
  deriving DecidableEq, Repr

/-- What the item that a transaction runs supplies to it (R42, R65). -/
structure Item where
  placement : Placement
  length    : Nat
  firstMask : Nibble
  lastMask  : Nibble
  data      : List Word
  direction : Direction
  progress  : Nat
  retryCount : Nat
  deriving DecidableEq, Repr

/-- Table 5-3: the failures of a transaction. -/
inductive Failure where
  | dataParity | targetError | timeout | retryLimit
  deriving DecidableEq, Repr

/-! ## Error Capture Unit (Tables 6-1, 6-2, 6-3) -/

/-- Table 6-1, in the order of the kind numbers. -/
inductive ErrorKind where
  | linkCheck | malformed | creditOverrun | tagInUse | unmapped | accessDenied | postingRefused | closedWrite
  | localRetryLimit | localTargetError | localTimeout | localParity | mgmtDenied
  deriving DecidableEq, Repr

/-- Table 11-10: sources. -/
inductive Source where
  | fromLink | fromDecode | fromLocal | fromManagement
  deriving DecidableEq, Repr

/-- R110. -/
inductive Severity where
  | correctable | nonfatal | fatal
  deriving DecidableEq, Repr

/-- Capture fields present for all kinds but LINK_CHECK, as received (Table 6-2). -/
structure PacketFields where
  kindCode    : BitVec 4
  cls         : ReqClass
  linkAddress : WordAddress
  length      : BitVec 5
  deriving DecidableEq, Repr

/-- Capture fields present for requests that matched a window (Table 6-2). -/
structure WindowCapture where
  index        : Fin 16
  localAddress : WordAddress
  progress     : Nat
  deriving DecidableEq, Repr

/-- R107, Table 6-2: an error report. An absent field is none. -/
structure Report where
  kind       : ErrorKind
  source     : Source
  packet     : Option PacketFields
  tag        : Option Tag
  generation : Option (BitVec 8)
  window     : Option WindowCapture
  firstData  : Option Word
  deriving DecidableEq, Repr

/-- R114: the contents of the First Error Record, a report and the severity assigned at its recording. -/
structure ErrorRecord where
  severity : Severity
  report   : Report
  deriving DecidableEq, Repr

/-- Table 6-4: the capture outcomes. -/
inductive CaptureOutcome where
  | filled | replaced | notCaptured
  deriving DecidableEq, Repr

/-! ## Notices (Table 7-1) -/

/-- R126, R127. -/
inductive Notice where
  | error (severity : Severity) (kind : ErrorKind) (outcome : CaptureOutcome) (coalesced : BitVec 8)
  | word (w : Word)
  deriving DecidableEq, Repr

/-- The answers of the local bus (R133). -/
inductive Answer where
  | ack | retry | error
  deriving DecidableEq, Repr

/-- What the part drives as slave: its answer and, for a read it acknowledges, the word and the four parity bits. -/
structure PortAnswer where
  answer   : Answer
  readData : Option (Word × Nibble)
  deriving DecidableEq, Repr

/-! ## Management Unit (Tables 8-1, 8-2) -/

/-- R139: a management request as a slot holds it, with the verdict of R144. -/
structure MgmtRequest where
  kind    : MgmtKind
  cls     : ReqClass
  tag     : Tag
  address : WordAddress
  length  : BitVec 5
  data    : List Word
  manager : Bool
  deriving DecidableEq, Repr

/-- Table 11-7: the six commands. -/
inductive CommandCode where
  | openPort | closePort | commit | discardStaging | clearErrors | resetPart
  deriving DecidableEq, Repr

/-- Table 11-5: management statuses. -/
inductive MgmtStatus where
  | done | badObject | readOnly | badValue | busy | invalidTable | wrongState | errorPending | stale | denied
  deriving DecidableEq, Repr

/-- R142: a reply, its status and words. -/
structure MgmtReply where
  status : MgmtStatus
  words  : List Word
  deriving DecidableEq, Repr

/-- Table 8-1. -/
inductive Slot where
  | free
  | waiting (r : MgmtRequest)
  | held (r : MgmtRequest)
  | reply (r : MgmtRequest) (m : MgmtReply)
  deriving DecidableEq, Repr

/-- R149. -/
inductive PortState where
  | closed | opened | halted
  deriving DecidableEq, Repr

/-! ## Link Port (R158, R165, R167) -/

/-- R158. -/
inductive LinkState where
  | down | up
  deriving DecidableEq, Repr

/-- R167: a pool's two counts. -/
structure CreditPool where
  outstanding : Nat
  awaiting    : Nat
  deriving DecidableEq, Repr

/-- R166: where the packet in transmission comes from. A response or a reply stays with its source until it is sent. -/
inductive TxSource where
  | credit
  | notice
  | reply (k : Fin 2)
  | response (i : Fin 24)
  deriving DecidableEq, Repr

/-- R165: the upstream packet in transmission, fixed from its start; `words` ends with the check word. -/
structure Transmission where
  source : TxSource
  words  : List Word
  deriving DecidableEq, Repr

end Sys2Proof.Machine
end

