-- ==== Sys2Proof/Machine/State.lean ====
section
/-! DEFINITION. Machine/State.lean: the state of the eight blocks (00_scope, Table 0-1), the reasons a step can stop, and
the state after power-on reset. -/

namespace Sys2Proof.Machine

/-- Link Port: R158, R159, R167, R170, R172, R131, R165. -/
structure LinkPort where
  state        : LinkState
  posted       : CreditPool
  nonPosted    : CreditPool
  management   : CreditPool
  sessionStart : Bool
  skip         : Nat
  seq          : BitVec 8
  tx           : Option Transmission
  deriving DecidableEq, Repr

/-- Window Decoder: R1, R22. -/
structure WindowDecoder where
  staging    : Bank
  active     : Bank
  generation : BitVec 8
  commit     : CommitState
  drain      : Nat
  deriving DecidableEq, Repr

/-- Request Tracker: R56, R58, R70. `order` lists the entries in use, oldest first; `completion` is the completion list,
head first. -/
structure RequestTracker where
  entries    : Vector TrackerEntry 24
  counter    : BitVec 8
  order      : List (Fin 24)
  completion : List (Fin 24)
  deriving DecidableEq, Repr

/-- Local Bus Engine: R82, Table 5-1. A timer that is stopped is none, and one that runs holds its interval in local
clocks (log entry 8). `cycle` is what the part drives on the shared bus signals. -/
structure LocalBusEngine where
  engine      : EngineState
  current     : Option CurrentItem
  streak      : Nat
  accessTimer : Option Nat
  beat        : Option Beat
  headTimer   : Option Nat
  entryTimers : Vector (Option Nat) 24
  parityMarks : Vector Bool 24
  cycle       : Option Cycle
  deriving DecidableEq, Repr

/-- Error Capture Unit: R113, Table 6-3. The record is EMPTY when `record` is none. Bit n of `mask` and `nextErrors` is
the kind numbered n. -/
structure ErrorCapture where
  mask        : BitVec 13
  severityMap : Vector Severity 13
  notify      : BitVec 3
  record      : Option ErrorRecord
  worst       : Option Severity
  stamp       : BitVec 16
  nextErrors  : BitVec 13
  overflow    : BitVec 16
  discarded   : BitVec 16
  deriving DecidableEq, Repr

/-- Management Unit: R139, R142, R147 (Table 8-3), R149. `arrivals` is the arrival order of the occupied slots and
`replies` the order in which the replies became ready. -/
structure ManagementUnit where
  slots         : Vector Slot 2
  arrivals      : List (Fin 2)
  replies       : List (Fin 2)
  resetPending  : Bool
  accessTimeout : BitVec 12
  retryLimit    : BitVec 4
  retryBackoff  : BitVec 8
  fairness      : BitVec 4
  haltOnFatal   : Bool
  managers      : Nibble
  portEnable    : Bool
  portBase      : BitVec 28
  port          : PortState
  deriving DecidableEq, Repr

/-- The whole block, and the commands that wait. `pwq` is the Posted Write Queue, head first (R37); `nq` is the Notice
Queue, head first (R126); `portAnswer` is what the part drove to the last beat of another local master. -/
structure State where
  link       : LinkPort
  wd         : WindowDecoder
  pwq        : List WriteRecord
  rt         : RequestTracker
  lbe        : LocalBusEngine
  ecu        : ErrorCapture
  nq         : List Notice
  mu         : ManagementUnit
  portAnswer : Option PortAnswer
  pending    : List Instr
  deriving DecidableEq, Repr

/-- Why a step can stop. All three are for states that the manual says do not occur; DOWNSTREAM_PACKET alone raises them,
and all are safe (log entry 13). -/
inductive Fault where
  /-- R39: "The append always finds a free place". Raised when a posted write is accepted with 32 records present. Safe. -/
  | queueFull
  /-- R61: "One is always available". Raised when an allocation finds no FREE entry. Safe. -/
  | noFreeEntry
  /-- R140: "A FREE slot is always there for it". Raised when a management request finds both slots occupied. Safe. -/
  | noFreeSlot
  deriving DecidableEq, Repr

/-- Why a command can be refused. -/
inductive Refusal where
  /-- Raised by an arm of `exec` whose command has no meaning yet (there is none). Safe. -/
  | notModelled (mnemonic : String)
  deriving DecidableEq, Repr

/-- R167: both counts zero. -/
def CreditPool.reset : CreditPool := { outstanding := 0, awaiting := 0 }

/-- R158, R167, R172, R131: DOWN, no credit, no count. The session-start mark is clear (log entry 16). -/
def LinkPort.reset : LinkPort :=
  { state := .down, posted := .reset, nonPosted := .reset, management := .reset, sessionStart := false, skip := 0,
    seq := 0, tx := none }

/-- R8, R22. -/
def WindowDecoder.reset : WindowDecoder :=
  { staging := Bank.reset, active := Bank.reset, generation := 0, commit := .idle, drain := 0 }

/-- R56, R58. -/
def RequestTracker.reset : RequestTracker :=
  { entries := Vector.replicate 24 TrackerEntry.reset, counter := 0, order := [], completion := [] }

/-- R82, Table 5-1, third column. -/
def LocalBusEngine.reset : LocalBusEngine :=
  { engine := .idle, current := none, streak := 0, accessTimer := none, beat := none, headTimer := none,
    entryTimers := Vector.replicate 24 none, parityMarks := Vector.replicate 24 false, cycle := none }

/-- Table 6-1, last column, in the order of the kind numbers. -/
def defaultSeverities : Vector Severity 13 :=
  #v[.correctable, .nonfatal, .fatal, .nonfatal, .nonfatal, .nonfatal, .nonfatal, .correctable, .nonfatal, .nonfatal,
     .fatal, .nonfatal, .nonfatal]

/-- R113, Table 6-3. -/
def ErrorCapture.reset : ErrorCapture :=
  { mask := 0, severityMap := defaultSeverities, notify := 0b110#3, record := none, worst := none, stamp := 0,
    nextErrors := 0, overflow := 0, discarded := 0 }

/-- R139, R147 (Table 8-3), R149. -/
def ManagementUnit.reset : ManagementUnit :=
  { slots := Vector.replicate 2 .free, arrivals := [], replies := [], resetPending := false,
    accessTimeout := Config.accessTimeoutReset, retryLimit := Config.retryLimitReset,
    retryBackoff := Config.retryBackoffReset, fairness := Config.fairnessReset, haltOnFatal := true,
    managers := Config.managersReset, portEnable := false, portBase := 0, port := .closed }

/-- The part right after power-on reset, with no command waiting. -/
def State.reset : State :=
  { link := .reset, wd := .reset, pwq := [], rt := .reset, lbe := .reset, ecu := .reset, nq := [], mu := .reset,
    portAnswer := none, pending := [] }

end Sys2Proof.Machine
end

