-- ==== Sys2Proof/Machine/Flags.lean ====
section
/-! DEFINITION. Machine/Flags.lean: the codes that the manual gives its names (Chapter 11), the order of the severities
and the saturating counts. -/

namespace Sys2Proof.Machine

/-- Table 6-1, first column. -/
def ErrorKind.number : ErrorKind → Fin 13
  | .linkCheck => 0
  | .malformed => 1
  | .creditOverrun => 2
  | .tagInUse => 3
  | .unmapped => 4
  | .accessDenied => 5
  | .postingRefused => 6
  | .closedWrite => 7
  | .localRetryLimit => 8
  | .localTargetError => 9
  | .localTimeout => 10
  | .localParity => 11
  | .mgmtDenied => 12

/-- R110, Table 11-8 (011H): 0 CORRECTABLE, 1 NONFATAL, 2 FATAL. -/
def Severity.code : Severity → BitVec 2
  | .correctable => 0
  | .nonfatal => 1
  | .fatal => 2

/-- The severity a code of object 011H names; code 3 names none (R110). -/
def Severity.ofCode (c : BitVec 2) : Option Severity :=
  if c = 0 then some .correctable else if c = 1 then some .nonfatal else if c = 2 then some .fatal else none

/-- R110: CORRECTABLE below NONFATAL below FATAL. -/
def Severity.below (a b : Severity) : Bool := a.code.toNat < b.code.toNat

/-- Table 11-8 (013H): 0 none, 1 CORRECTABLE, 2 NONFATAL, 3 FATAL. -/
def worstCode : Option Severity → BitVec 2
  | none => 0
  | some s => s.code + 1

/-- Table 11-10 (014H). -/
def Source.code : Source → BitVec 2
  | .fromLink => 0
  | .fromDecode => 1
  | .fromLocal => 2
  | .fromManagement => 3

/-- Table 11-6. -/
def CaptureOutcome.code : CaptureOutcome → BitVec 2
  | .filled => 0
  | .replaced => 1
  | .notCaptured => 2

/-- Table 11-4. -/
def Status.code : Status → BitVec 4
  | .ok => 0
  | .unmapped => 1
  | .denied => 2
  | .refusedClosed => 3
  | .refusedHalted => 4
  | .targetError => 5
  | .timeout => 6
  | .retryLimit => 7
  | .dataParity => 8

/-- Table 11-5. -/
def MgmtStatus.code : MgmtStatus → BitVec 4
  | .done => 0
  | .badObject => 1
  | .readOnly => 2
  | .badValue => 3
  | .busy => 4
  | .invalidTable => 5
  | .wrongState => 6
  | .errorPending => 7
  | .stale => 8
  | .denied => 9

/-- Table 11-7, reasons. -/
def TableReason.code : TableReason → BitVec 4
  | .badSize => 1
  | .misalignedBase => 2
  | .misalignedTranslation => 3
  | .beyondSpace => 4
  | .badCode => 5

/-- Table 11-8 (001H). -/
def PortState.code : PortState → BitVec 2
  | .closed => 0
  | .opened => 1
  | .halted => 2

/-- Table 11-9, word 0 bits 13..12. -/
def LaneSwap.code : LaneSwap → BitVec 2
  | .noSwap => 0
  | .swap16 => 1
  | .swap32 => 2
  | .invalid => 3

/-- Table 11-9, word 0 bits 13..12. -/
def LaneSwap.ofCode (c : BitVec 2) : LaneSwap :=
  if c = 0 then .noSwap else if c = 1 then .swap16 else if c = 2 then .swap32 else .invalid

/-- Table 11-9, word 0 bit 10. -/
def WindowOrder.bit : WindowOrder → Bool
  | .strict => false
  | .relaxed => true

/-- Table 11-2, downstream data kinds. -/
def DataKind.code : DataKind → BitVec 4
  | .writePosted => 1
  | .writeConfirmed => 2
  | .read => 3

/-- Table 11-2, management kinds. -/
def MgmtKind.code : MgmtKind → BitVec 4
  | .mgmtRead => 4
  | .mgmtWrite => 5
  | .mgmtCommand => 6

/-- Table 11-2: the kind that a code names downstream. Codes 0, 7, 8 and 14 and above name no kind, and codes 9 to 13 are
of upstream-only kinds (R178). -/
def DownstreamKind.ofCode (c : BitVec 4) : Option DownstreamKind :=
  if c = 1 then some (.data .writePosted)
  else if c = 2 then some (.data .writeConfirmed)
  else if c = 3 then some (.data .read)
  else if c = 4 then some (.mgmt .mgmtRead)
  else if c = 5 then some (.mgmt .mgmtWrite)
  else if c = 6 then some (.mgmt .mgmtCommand)
  else none

/-- Table 9-3: the pool a kind is charged to. -/
def DownstreamKind.pool : DownstreamKind → Pool
  | .data .writePosted => .posted
  | .data .writeConfirmed => .nonPosted
  | .data .read => .nonPosted
  | .mgmt _ => .management

/-- Table 11-7; a code other than 1 to 6 names no command. -/
def CommandCode.ofAddress (a : WordAddress) : Option CommandCode :=
  if a = 1 then some .openPort
  else if a = 2 then some .closePort
  else if a = 3 then some .commit
  else if a = 4 then some .discardStaging
  else if a = 5 then some .clearErrors
  else if a = 6 then some .resetPart
  else none

/-- The kind code of a tracker entry's request. -/
def NonPostedKind.code : NonPostedKind → BitVec 4
  | .read => DataKind.read.code
  | .writeConfirmed => DataKind.writeConfirmed.code

/-- A count of `n` bits said to saturate: one more, unless it stands at its largest value (00_scope, "Counts"). -/
def satIncr {n : Nat} (c : BitVec n) : BitVec n := if c = BitVec.allOnes n then c else c + 1

/-- Table 4-4 and Table 5-3: the status of a failed entry. -/
def Failure.status : Failure → Status
  | .dataParity => .dataParity
  | .targetError => .targetError
  | .timeout => .timeout
  | .retryLimit => .retryLimit

/-- Table 5-3: the error kind of a failure. -/
def Failure.errorKind : Failure → ErrorKind
  | .dataParity => .localParity
  | .targetError => .localTargetError
  | .timeout => .localTimeout
  | .retryLimit => .localRetryLimit

end Sys2Proof.Machine
end

