-- ==== Sys2Proof/Machine/Operands.lean ====
section
/-! DEFINITION. Machine/Operands.lean: bit fields of words, byte lanes, parity, masks, window arithmetic and the check of
the module link. -/

namespace Sys2Proof.Machine

/-! ## Bit fields (Chapter 11) -/

/-- The field of a word whose lowest bit is `lo`. -/
def field (w : Word) (lo len : Nat) : BitVec len := w.extractLsb' lo len

/-- A word that holds `v` from bit `lo` upward and zero elsewhere. -/
def place {n : Nat} (lo : Nat) (v : BitVec n) : Word := v.setWidth 32 <<< lo

/-- A word that holds one flag at bit `lo`. -/
def placeBit (lo : Nat) (b : Bool) : Word := place lo (BitVec.ofBool b)

/-- A word that holds a count in `len` bits from bit `lo` upward (log entry 19). -/
def placeNat (lo len n : Nat) : Word := place lo (BitVec.ofNat len n)

/-! ## Byte lanes (R5, Table 1-2) -/

/-- Byte `k` of a word. -/
def byteOf (w : Word) (k : Nat) : BitVec 8 := w.extractLsb' (8 * k) 8

/-- The word whose bytes 3 to 0 are given. -/
def ofBytes (b3 b2 b1 b0 : BitVec 8) : Word := b3 ++ b2 ++ b1 ++ b0

/-- The four flags, flag 3 first. -/
def ofFlags (f3 f2 f1 f0 : Bool) : Nibble :=
  BitVec.ofBool f3 ++ BitVec.ofBool f2 ++ BitVec.ofBool f1 ++ BitVec.ofBool f0

/-- R5: the exchange of a word's bytes. Code 3 names no arrangement; no window that decode uses holds it (R26), and the
word passes unchanged (log entry 14). -/
def swapWord (s : LaneSwap) (w : Word) : Word :=
  match s with
  | .noSwap => w
  | .swap16 => ofBytes (byteOf w 1) (byteOf w 0) (byteOf w 3) (byteOf w 2)
  | .swap32 => ofBytes (byteOf w 0) (byteOf w 1) (byteOf w 2) (byteOf w 3)
  | .invalid => w

/-- R5: the same exchange of a word's byte enables. -/
def swapEnables (s : LaneSwap) (m : Nibble) : Nibble :=
  match s with
  | .noSwap => m
  | .swap16 => ofFlags (m.getLsbD 1) (m.getLsbD 0) (m.getLsbD 3) (m.getLsbD 2)
  | .swap32 => ofFlags (m.getLsbD 0) (m.getLsbD 1) (m.getLsbD 2) (m.getLsbD 3)
  | .invalid => m

/-- A byte where its enable is set, else zero. -/
def keepByte (b : Bool) (v : BitVec 8) : BitVec 8 := if b then v else 0

/-- R91: every byte that the enables do not enable is zero. -/
def maskWord (m : Nibble) (w : Word) : Word :=
  ofBytes (keepByte (m.getLsbD 3) (byteOf w 3)) (keepByte (m.getLsbD 2) (byteOf w 2))
    (keepByte (m.getLsbD 1) (byteOf w 1)) (keepByte (m.getLsbD 0) (byteOf w 0))

/-- The exclusive OR of the eight bits of a byte. -/
def byteParity (b : BitVec 8) : Bool :=
  b.getLsbD 0 ^^ b.getLsbD 1 ^^ b.getLsbD 2 ^^ b.getLsbD 3 ^^ b.getLsbD 4 ^^ b.getLsbD 5 ^^ b.getLsbD 6 ^^ b.getLsbD 7

/-- R99: the parity bit of lane `k`, with which the byte holds an even number of ones. -/
def laneParity (w : Word) (k : Nat) : Bool := byteParity (byteOf w k)

/-- R134: the parity bits of all four lanes. -/
def parityBits (w : Word) : Nibble := ofFlags (laneParity w 3) (laneParity w 2) (laneParity w 1) (laneParity w 0)

/-- R99: a checked lane shows a parity error; lanes that are not enabled are not checked. -/
def parityError (enables : Nibble) (w : Word) (parity : Nibble) : Bool := (enables &&& (parityBits w ^^^ parity)) != 0

/-- R99: the parity bits that a write drives, one for each enabled lane. -/
def drivenParity (enables : Nibble) (w : Word) : Vector (Option Bool) 4 :=
  #v[if enables.getLsbD 0 then some (laneParity w 0) else none, if enables.getLsbD 1 then some (laneParity w 1) else none,
     if enables.getLsbD 2 then some (laneParity w 2) else none, if enables.getLsbD 3 then some (laneParity w 3) else none]

/-! ## Items on the local bus (R89, R92) -/

/-- R89: the link-side byte enables of the word at `position` of an item. -/
def maskAt (length : Nat) (first last : Nibble) (position : Nat) : Nibble :=
  if position = 0 then first else if position + 1 = length then last else 0xF#4

/-- R92: the number of beats of the cycle that begins at `position`: all the remaining words when burst is allowed and two
or more remain, else one. -/
def beatsFrom (burst : Bool) (length position : Nat) : Nat :=
  if burst && decide (2 ≤ length - position) then length - position else 1

/-- R42, R89: the word address of the word at `position`. -/
def wordAt (a : WordAddress) (position : Nat) : WordAddress := a + BitVec.ofNat 30 position

/-! ## Windows (R2, R11, R12, R13, R17) -/

/-- R2: the window size in bytes; codes 21 to 31 give no size (log entry 14). -/
def windowSize (k : BitVec 5) : Option Nat := if k.toNat ≤ 20 then some (4096 * 2 ^ k.toNat) else none

/-- The byte address of a base field (address bits 31..12). -/
def baseByte (b : BitVec 20) : Nat := b.toNat * 4096

/-- The byte address of a word address. -/
def wordByte (a : WordAddress) : Nat := a.toNat * 4

/-- R11: the byte address of the last word of a span, formed without wrapping. -/
def lastByte (a : WordAddress) (length : Nat) : Nat := wordByte a + 4 * (length - 1)

/-- R2: the link range of a window contains a byte address; both ends are included. -/
def WindowEntry.contains (e : WindowEntry) (byte : Nat) : Bool :=
  match windowSize e.sizeCode with
  | some size => decide (baseByte e.linkBase ≤ byte ∧ byte < baseByte e.linkBase + size)
  | none => false

/-- R17: translation base plus link address minus link base. -/
def WindowEntry.translate (e : WindowEntry) (a : WordAddress) : WordAddress :=
  (e.translationBase ++ 0#10) + a - (e.linkBase ++ 0#10)

/-- R3, R15, Table 11-9: the read flag of a class. -/
def WindowEntry.mayRead (e : WindowEntry) (c : ReqClass) : Bool := e.rights.getLsbD (2 * c.toNat)

/-- R3, R15, Table 11-9: the write flag of a class. -/
def WindowEntry.mayWrite (e : WindowEntry) (c : ReqClass) : Bool := e.rights.getLsbD (2 * c.toNat + 1)

/-! ## The check of the module link (R162) -/

/-- R162: one bit enters the register. -/
def crcBit (r : BitVec 16) (b : Bool) : BitVec 16 :=
  if r.msb != b then (r <<< 1) ^^^ Config.crcPolynomial else r <<< 1

/-- R162: the `n` low bits of a word enter, the highest of them first. -/
def crcBits (w : Word) : Nat → BitVec 16 → BitVec 16
  | 0, r => r
  | n + 1, r => crcBits w n (crcBit r (w.getLsbD n))

/-- R162: the check over a sequence of words, each from bit 31 down to bit 0. -/
def crc (words : List Word) : BitVec 16 := words.foldl (fun r w => crcBits w 32 r) Config.crcStart

/-- R165, R179: a packet with its check word, whose bits 31..16 are zero. -/
def withCheck (words : List Word) : List Word := words ++ [place 0 (crc words)]

/-! ## Small vectors -/

/-- A vector with `f` applied to each element. -/
def mapAll {α β : Type} {n : Nat} (f : α → β) (v : Vector α n) : Vector β n := Vector.ofFn fun i => f v[i]

end Sys2Proof.Machine
end

