-- ==== Sys2Proof/Machine/Packet.lean ====
section
/-! DEFINITION. Machine/Packet.lean: how a received packet is read and checked (R162, R164, R178) and how an upstream
packet is built (R165, R179). -/

namespace Sys2Proof.Machine

/-! ## Received packets -/

/-- R178, Table 11-1: the two header words. -/
def Header.read (w0 w1 : Word) : Header :=
  { kindCode := field w0 28 4, cls := field w0 26 2, tag := field w0 21 5, length := field w0 16 5,
    firstMask := field w0 12 4, lastMask := field w0 8 4, address := field w1 2 30 }

/-- R162, R178: a received packet that is sound in integrity gives its header and its data words. A packet of fewer than
three words, or whose check differs from the check computed over header and data words, gives none. -/
def readPacket : List Word → Option (Header × List Word)
  | w0 :: w1 :: w2 :: rest =>
    let data := (w2 :: rest).dropLast
    let check := (w2 :: rest).getLast (List.cons_ne_nil w2 rest)
    if field check 0 16 = crc (w0 :: w1 :: data) then some (Header.read w0 w1, data) else none
  | _ => none

/-- R164, Table 9-4, conditions on the masks of a data request. -/
def masksWellFormed (h : Header) : Bool :=
  h.firstMask != 0 && (if h.length = 1 then h.lastMask == 0 else h.lastMask != 0)

/-- R164, Table 9-4: the packet meets every form condition that applies to its kind. -/
def formWellFormed (k : DownstreamKind) (h : Header) (data : List Word) : Bool :=
  match k with
  | .data .read =>
    decide (1 ≤ h.length.toNat ∧ h.length.toNat ≤ 16) && data.isEmpty && masksWellFormed h
  | .data .writePosted =>
    decide (1 ≤ h.length.toNat ∧ h.length.toNat ≤ 16) && data.length == h.length.toNat && masksWellFormed h
  | .data .writeConfirmed =>
    decide (1 ≤ h.length.toNat ∧ h.length.toNat ≤ 16) && data.length == h.length.toNat && masksWellFormed h
  | .mgmt .mgmtRead => decide (1 ≤ h.length.toNat ∧ h.length.toNat ≤ 8) && data.isEmpty
  | .mgmt .mgmtWrite => decide (1 ≤ h.length.toNat ∧ h.length.toNat ≤ 8) && data.length == h.length.toNat
  | .mgmt .mgmtCommand => decide (1 ≤ h.length.toNat ∧ h.length.toNat ≤ 8) && decide (data.length ≤ 1)

/-- The data request that a well-formed packet carries (R161). -/
def Header.dataRequest (h : Header) (k : DataKind) (data : List Word) : DataRequest :=
  { kind := k, cls := h.cls, tag := h.tag, linkAddress := h.address, length := h.length.toNat,
    firstMask := h.firstMask, lastMask := h.lastMask, data := data }

/-! ## Upstream packets (Table 11-3) -/

/-- READ_DATA: the count is the length of the request when the status is OK, and 0 otherwise; other statuses carry no
words (R72, R179). -/
def readDataPacket (tag : Tag) (status : Status) (length : Nat) (data : List Word) : List Word :=
  let count := if status = .ok then length else 0
  let words := if status = .ok then data else []
  withCheck ((place 28 9#4 ||| place 21 tag ||| place 16 status.code ||| placeNat 8 5 count) :: words)

/-- WRITE_DONE (R73). -/
def writeDonePacket (tag : Tag) (status : Status) (completed : Nat) : List Word :=
  withCheck [place 28 10#4 ||| place 21 tag ||| place 16 status.code ||| placeNat 8 5 completed]

/-- The response of an entry: its kind decides which packet it is (R72, R73). A COMPLETE entry has a status; OK stands in
for a missing one, in states that no run reaches (R57; log entry 22). -/
def responsePacket (e : TrackerEntry) : List Word :=
  let status := e.status.getD .ok
  match e.kind with
  | .read => readDataPacket e.tag status e.length e.data
  | .writeConfirmed => writeDonePacket e.tag status e.progress

/-- MGMT_REPLY (R142, R179). -/
def replyPacket (tag : Tag) (m : MgmtReply) : List Word :=
  withCheck ((place 28 11#4 ||| place 21 tag ||| place 16 m.status.code ||| placeNat 8 4 m.words.length) :: m.words)

/-- Table 11-6: the payload word of a notice. -/
def Notice.payload : Notice → Word
  | .error s k o c => place 0 s.code ||| placeNat 4 4 k.number.val ||| place 8 o.code ||| place 16 c
  | .word w => w

/-- Table 11-3, NOTICE: bit 8 is the notice kind, 0 ERROR and 1 LOCAL. -/
def Notice.isLocal : Notice → Bool
  | .error _ _ _ _ => false
  | .word _ => true

/-- NOTICE (R131, R127). -/
def noticePacket (seq : BitVec 8) (n : Notice) : List Word :=
  withCheck [place 28 12#4 ||| place 16 seq ||| placeBit 8 n.isLocal, n.payload]

/-- CREDIT (R170, R179). -/
def creditPacket (posted nonPosted management : Nat) (sessionStart : Bool) : List Word :=
  withCheck [place 28 13#4 ||| placeNat 16 6 posted ||| placeNat 8 5 nonPosted ||| placeNat 4 2 management |||
    placeBit 0 sessionStart]

end Sys2Proof.Machine
end

