-- ==== Sys2Proof/Machine/Ops.lean ====
section
/-! DEFINITION. Machine/Ops.lean: the operations that several commands share, block by block: credits, the drain,
retirement, the error report with the notice and the halt it leads to, the session end and the resets. -/

namespace Sys2Proof.Machine

/-! ## Reading the state -/

/-- R37: the occupancy of the Posted Write Queue. -/
def State.occupancy (s : State) : Nat := s.pwq.length

/-- An entry is in use when it is not FREE (R56). -/
def TrackerEntry.inUse (e : TrackerEntry) : Bool := e.state != .free

/-- R56: the in-use count, orphans included. -/
def State.inUseCount (s : State) : Nat := s.rt.entries.toList.countP TrackerEntry.inUse

/-- A slot is occupied when it is not FREE (Table 9-6). -/
def Slot.occupied : Slot → Bool
  | .free => false
  | .waiting _ => true
  | .held _ => true
  | .reply _ _ => true

/-- The number of slots that are not FREE. -/
def State.occupiedSlots (s : State) : Nat := s.mu.slots.toList.countP Slot.occupied

/-- R27: the number of items in flight. -/
def State.itemsInFlight (s : State) : Nat := s.inUseCount + s.occupancy

/-- R88, Table 11-11: the bus request is raised from REQUESTING until the transaction ends. -/
def State.busRequest (s : State) : Bool := s.lbe.engine != .idle

/-- R158: the physical layer trains whenever the link is DOWN, from the release of power-on reset and from every
session end (log entry 18). -/
def State.linkTraining (s : State) : Bool := s.link.state == .down

/-! ## Credits (R167, R169) -/

/-- The pool named. -/
def LinkPort.pool (l : LinkPort) : Pool → CreditPool
  | .posted => l.posted
  | .nonPosted => l.nonPosted
  | .management => l.management

/-- The Link Port with the pool named replaced. -/
def LinkPort.setPool (l : LinkPort) (p : Pool) (c : CreditPool) : LinkPort :=
  match p with
  | .posted => { l with posted := c }
  | .nonPosted => { l with nonPosted := c }
  | .management => { l with management := c }

/-- Table 9-6: a pool's capacity. -/
def Pool.capacity : Pool → Nat
  | .posted => Config.postedCapacity
  | .nonPosted => Config.nonPostedCapacity
  | .management => Config.managementCapacity

/-- Table 9-6: a pool's resources in use. -/
def State.inUse (s : State) : Pool → Nat
  | .posted => s.occupancy
  | .nonPosted => s.inUseCount
  | .management => s.occupiedSlots

/-- R169: a resource of the pool is released. While the link is UP the returns awaiting rise by one; while it is DOWN the
counts are unchanged. -/
def State.release (p : Pool) (s : State) : State :=
  match s.link.state with
  | .up => { s with link := s.link.setPool p { s.link.pool p with awaiting := (s.link.pool p).awaiting + 1 } }
  | .down => s

/-- R163, step 3: one grant of the pool is consumed. -/
def State.consume (p : Pool) (s : State) : State :=
  { s with link := s.link.setPool p { s.link.pool p with outstanding := (s.link.pool p).outstanding - 1 } }

/-! ## The drain (R29, R30, R31) -/

/-- A HELD slot whose request is a COMMIT (Table 8-1). -/
def Slot.holdsCommit : Slot → Bool
  | .held r => r.kind == .mgmtCommand && CommandCode.ofAddress r.address == some .commit
  | .free => false
  | .waiting _ => false
  | .reply _ _ => false

/-- A slot with its reply, when it holds a request. -/
def Slot.answered (m : MgmtReply) : Slot → Slot
  | .waiting r => .reply r m
  | .held r => .reply r m
  | .reply r m' => .reply r m'
  | .free => .free

/-- R142: the reply is placed in slot `k`, last in the order of readiness. -/
def State.placeReply (k : Fin 2) (m : MgmtReply) (s : State) : State :=
  { s with mu := { s.mu with slots := s.mu.slots.set k (s.mu.slots[k].answered m), replies := s.mu.replies ++ [k] } }

/-- A DONE reply with the words given. -/
def doneReply (words : List Word) : MgmtReply := { status := .done, words := words }

/-- A reply of a status alone, with no words (Table 8-2). -/
def bareReply (status : MgmtStatus) : MgmtReply := { status := status, words := [] }

/-- R27, R179: DONE with the generation in bits 7..0 and zero above (log entry 25). -/
def generationReply (g : BitVec 8) : MgmtReply := doneReply [place 0 g]

/-- R31: DONE with the current generation is placed in the slot that the COMMIT still occupies, if it does. -/
def State.placeDone (s : State) : State :=
  if s.mu.slots[0].holdsCommit then s.placeReply 0 (generationReply s.wd.generation)
  else if s.mu.slots[1].holdsCommit then s.placeReply 1 (generationReply s.wd.generation)
  else s

/-- R30, R31: the Window Decoder is told of the retirement of an item of generation `g`. -/
def State.countOut (g : BitVec 8) (s : State) : State :=
  if s.wd.commit = .draining ∧ g ≠ s.wd.generation then
    if s.wd.drain ≤ 1 then State.placeDone { s with wd := { s.wd with drain := 0, commit := .idle } }
    else { s with wd := { s.wd with drain := s.wd.drain - 1 } }
  else s

/-! ## Retirement of write records (R48, R52, R63, R121) -/

/-- R63: an ORDERED entry's writes-ahead count is lowered by one, and at 0 the entry becomes READY. -/
def TrackerEntry.oneRetired (e : TrackerEntry) : TrackerEntry :=
  if e.state = .ordered then
    { e with writesAhead := e.writesAhead - 1, state := if e.writesAhead ≤ 1 then .ready else .ordered }
  else e

/-- R48, R63: the Request Tracker is told that one record has retired. -/
def State.orderingNotice (s : State) : State :=
  { s with rt := { s.rt with entries := mapAll TrackerEntry.oneRetired s.rt.entries } }

/-- R48: the three notices of one retirement, of a record of generation `g`. The record has left the queue. -/
def State.retirement (g : BitVec 8) (s : State) : State := ((s.release .posted).orderingNotice).countOut g

/-- R121: one posted write discarded because of HALTED. -/
def State.countDiscard (s : State) : State := { s with ecu := { s.ecu with discarded := satIncr s.ecu.discarded } }

/-- R52: one record, already out of the queue, retires as discarded. -/
def State.discardRecord (s : State) (r : WriteRecord) : State := (s.retirement r.generation).countDiscard

/-! ## The entry to HALTED (R52, R76, R152) -/

/-- R52: every record that is not ACTIVE is discarded, from the oldest to the newest; the backoff interval of a head in
BACKOFF is abandoned (R96). -/
def State.discardWaiting (s : State) : State :=
  let kept := s.pwq.filter fun r => r.state == .active
  let gone := s.pwq.filter fun r => r.state != .active
  let timer := if s.pwq.any fun r => r.state == .backoff then none else s.lbe.headTimer
  gone.foldl State.discardRecord { s with pwq := kept, lbe := { s.lbe with headTimer := timer } }

/-- R76: ORDERED, READY and BACKOFF entries are the ones that wait. -/
def TrackerEntry.waits (e : TrackerEntry) : Bool := e.state == .ordered || e.state == .ready || e.state == .backoff

/-- R57: an entry becomes COMPLETE with a status and a writes-ahead count of 0. -/
def TrackerEntry.completed (st : Status) (e : TrackerEntry) : TrackerEntry :=
  { e with state := .complete, status := some st, writesAhead := 0 }

/-- R76: every waiting entry becomes COMPLETE with REFUSED_HALTED and joins the completion list in allocation order; the
backoff timers of those in BACKOFF stop (R96). -/
def State.completeWaiting (s : State) : State :=
  let timers := Vector.ofFn fun i : Fin 24 =>
    if s.rt.entries[i].state = .backoff then none else s.lbe.entryTimers[i]
  { s with
    rt := { s.rt with
      entries := mapAll (fun e => if e.waits then e.completed .refusedHalted else e) s.rt.entries
      completion := s.rt.completion ++ s.rt.order.filter fun i => s.rt.entries[i].waits }
    lbe := { s.lbe with entryTimers := timers } }

/-- R152: the entry to HALTED. The queue's discards are taken before the tracker's completions; R52 shows that the other
order gives the same. -/
def State.enterHalted (s : State) : State :=
  State.completeWaiting (State.discardWaiting { s with mu := { s.mu with port := .halted } })

/-- R152: the Management Unit is informed that a FATAL error has been recorded. -/
def State.fatalRecorded (s : State) : State :=
  if s.mu.haltOnFatal = true ∧ s.mu.port ≠ .halted then s.enterHalted else s

/-! ## Notices (R126, R128) -/

/-- An ERROR notice of a severity. -/
def Notice.hasSeverity (v : Severity) : Notice → Bool
  | .error u _ _ _ => u == v
  | .word _ => false

/-- R128: an ERROR notice of the request's severity absorbs it. -/
def Notice.absorb (v : Severity) : Notice → Notice
  | .error u k o c => if u = v then .error u k o (satIncr c) else .error u k o c
  | .word w => .word w

/-- R128: the Notice Queue takes an error notice request. -/
def State.requestNotice (v : Severity) (k : ErrorKind) (o : CaptureOutcome) (s : State) : State :=
  match s.link.state with
  | .down => s
  | .up =>
    if s.nq.any (Notice.hasSeverity v) then { s with nq := s.nq.map (Notice.absorb v) }
    else { s with nq := s.nq ++ [.error v k o 0] }

/-- R133, R134: the number of LOCAL notices present. -/
def State.localNotices (s : State) : Nat := s.nq.countP Notice.isLocal

/-! ## The Error Capture Unit takes a report (R108 to R120) -/

/-- The set of one kind. -/
def ErrorKind.bit (k : ErrorKind) : BitVec 13 := BitVec.twoPow 13 k.number

/-- R109: the record mask masks the kind. -/
def ErrorCapture.masks (u : ErrorCapture) (k : ErrorKind) : Bool := u.mask.getLsbD k.number

/-- R110: the severity that the map gives the kind. -/
def ErrorCapture.severityOf (u : ErrorCapture) (k : ErrorKind) : Severity := u.severityMap[k.number]

/-- R111: the notify enable of a severity. -/
def ErrorCapture.notifies (u : ErrorCapture) (v : Severity) : Bool := u.notify.getLsbD v.code.toNat

/-- R115, R116, R117 (Table 6-4): the unit after an unmasked report of severity `v` is recorded, and the capture outcome. -/
def ErrorCapture.recorded (u : ErrorCapture) (v : Severity) (r : Report) : ErrorCapture × CaptureOutcome :=
  match u.record with
  | none => ({ u with record := some ⟨v, r⟩, worst := some v, stamp := u.stamp + 1 }, .filled)
  | some old =>
    if old.severity.below v then
      ({ u with record := some ⟨v, r⟩, worst := some v, stamp := u.stamp + 1,
                nextErrors := u.nextErrors ||| old.report.kind.bit, overflow := satIncr u.overflow }, .replaced)
    else ({ u with nextErrors := u.nextErrors ||| r.kind.bit, overflow := satIncr u.overflow }, .notCaptured)

/-- R119, R120: what follows the recording. The notice is asked for before the Management Unit is informed; either order
gives the same (log entry 17). -/
def State.afterRecording (v : Severity) (k : ErrorKind) (o : CaptureOutcome) (s : State) : State :=
  let s1 := if s.ecu.notifies v then s.requestNotice v k o else s
  if v = .fatal then s1.fatalRecorded else s1

/-- R108: the Error Capture Unit takes a report whole; a halt it causes stands in the same step (log entry 24). -/
def State.report (r : Report) (s : State) : State :=
  if s.ecu.masks r.kind then s
  else
    let v := s.ecu.severityOf r.kind
    let (u, o) := s.ecu.recorded v r
    State.afterRecording v r.kind o { s with ecu := u }

/-! ## Tracker entries (R56, R67, R70, R71, R79) -/

/-- R56: an entry becomes FREE with a writes-ahead count of 0 and the orphan flag "no". -/
def TrackerEntry.freed (e : TrackerEntry) : TrackerEntry :=
  { e with state := .free, writesAhead := 0, orphan := false, status := none }

/-- Entry `i` replaced. -/
def RequestTracker.setEntry (t : RequestTracker) (i : Fin 24) (e : TrackerEntry) : RequestTracker :=
  { t with entries := t.entries.set i e }

/-- R67, R77: entry `i` takes a status, becomes COMPLETE and is appended to the completion list. -/
def State.completeEntry (i : Fin 24) (st : Status) (s : State) : State :=
  { s with rt := { s.rt.setEntry i (s.rt.entries[i].completed st) with completion := s.rt.completion ++ [i] } }

/-- R71, R79: entry `i` becomes FREE, leaves both lists and sends its release notices. -/
def State.freeEntry (i : Fin 24) (s : State) : State :=
  let g := s.rt.entries[i].generation
  let t := { s.rt.setEntry i s.rt.entries[i].freed with
    order := s.rt.order.filter (· != i), completion := s.rt.completion.filter (· != i) }
  (State.release .nonPosted { s with rt := t }).countOut g

/-! ## The end of a link session (R159, Table 9-1) -/

/-- R78: ORDERED, READY, BACKOFF and COMPLETE entries are freed at a session end. -/
def TrackerEntry.freedAtSessionEnd (e : TrackerEntry) : Bool := e.state != .free && e.state != .active

/-- R78: an entry at a session end. -/
def TrackerEntry.sessionEnded (e : TrackerEntry) : TrackerEntry :=
  if e.freedAtSessionEnd then e.freed else if e.state = .active then { e with orphan := true } else e

/-- R159: the Link Port's own action; the link is DOWN. -/
def LinkPort.ended (l : LinkPort) : LinkPort :=
  { l with state := .down, posted := .reset, nonPosted := .reset, management := .reset, sessionStart := false,
           skip := 0, tx := none }

/-- R143, R154: the slots are freed and an OPEN port becomes CLOSED. -/
def ManagementUnit.sessionEnded (m : ManagementUnit) : ManagementUnit :=
  { m with slots := Vector.replicate 2 .free, arrivals := [], replies := [],
           port := if m.port = .opened then .closed else m.port }

/-- R158, R159 (Table 9-1): the end of a link session; nothing when the link is DOWN. The retirements of the freed entries
are counted one by one, in allocation order (R30, R33); the slots are already empty, so no reply is placed. -/
def State.endSession (s : State) : State :=
  match s.link.state with
  | .down => s
  | .up =>
    let gone := (s.rt.order.filter fun i => s.rt.entries[i].freedAtSessionEnd).map fun i => s.rt.entries[i].generation
    let timers := Vector.ofFn fun i : Fin 24 =>
      if s.rt.entries[i].state = .backoff then none else s.lbe.entryTimers[i]
    let s1 : State := { s with
      link := s.link.ended
      rt := { s.rt with
        entries := mapAll TrackerEntry.sessionEnded s.rt.entries
        order := s.rt.order.filter fun i => !s.rt.entries[i].freedAtSessionEnd
        completion := [] }
      lbe := { s.lbe with entryTimers := timers }
      nq := []
      mu := s.mu.sessionEnded }
    gone.foldl (fun t g => t.countOut g) s1

/-! ## Resets (R157, R158) -/

/-- R157: RESET_PART takes effect. Every block but the Error Capture Unit returns to its power-on values, and the port
state is HALTED when the worst severity kept is FATAL, else CLOSED. -/
def State.partReset (s : State) : State :=
  { link := .reset, wd := .reset, pwq := [], rt := .reset, lbe := .reset, ecu := s.ecu, nq := [],
    mu := { ManagementUnit.reset with port := if s.ecu.worst = some .fatal then .halted else .closed },
    portAnswer := none, pending := s.pending }

end Sys2Proof.Machine
end

