-- ==== Sys2Proof/Machine/WindowDecode.lean ====
section
/-! DEFINITION. Machine/WindowDecode.lean: the decode of one data request (R9 to R21), the append to the Posted Write
Queue (R39) and the tag check and allocation of the Request Tracker (R59 to R62). -/

namespace Sys2Proof.Machine

/-- Table 1-5: the outcomes of a decode. The three refusals of a matched window carry what Table 1-6 captures of it. -/
inductive DecodeOutcome where
  | closed
  | halted
  | unmatched
  | notContained (p : Placement)
  | denied (p : Placement)
  | postingRefused (p : Placement)
  | accepted (p : Placement) (order : WindowOrder)
  deriving DecidableEq, Repr

/-- R12: the first entry in index order that is enabled and whose link range contains the first word. -/
def findMatch (bank : Bank) (a : WordAddress) : Option (Fin 16) :=
  (List.finRange 16).find? fun i => bank[i].enabled && bank[i].contains (wordByte a)

/-- R17: what the matched entry gives the request. -/
def placementAt (bank : Bank) (i : Fin 16) (a : WordAddress) : Placement :=
  { localAddress := bank[i].translate a, index := i, laneSwap := bank[i].laneSwap, burstAllowed := bank[i].burstAllowed,
    attr := bank[i].attr }

/-- R13, R11: the matched entry contains the last word too, and the span stays within the link space. -/
def WindowEntry.containsSpan (e : WindowEntry) (a : WordAddress) (length : Nat) : Bool :=
  decide (lastByte a length < 2 ^ 32) && e.contains (lastByte a length)

/-- R15: the right that a kind of request needs. -/
def WindowEntry.permits (e : WindowEntry) (k : DataKind) (c : ReqClass) : Bool :=
  match k with
  | .read => e.mayRead c
  | .writePosted => e.mayWrite c
  | .writeConfirmed => e.mayWrite c

/-- R14: steps 3 to 6 of Table 1-4, on the matched entry. -/
def decodeMatched (bank : Bank) (i : Fin 16) (q : DataRequest) : DecodeOutcome :=
  let p := placementAt bank i q.linkAddress
  if !bank[i].containsSpan q.linkAddress q.length then .notContained p
  else if !bank[i].permits q.kind q.cls then .denied p
  else if q.kind == .writePosted && !bank[i].postingAllowed then .postingRefused p
  else .accepted p bank[i].order

/-- R9, Table 1-4: the decode of one request against the port state and the active bank. -/
def decode (port : PortState) (bank : Bank) (q : DataRequest) : DecodeOutcome :=
  match port with
  | .closed => .closed
  | .halted => .halted
  | .opened =>
    match findMatch bank q.linkAddress with
    | none => .unmatched
    | some i => decodeMatched bank i q

/-- Table 1-4: the refusal status of a non-posted request. POSTING_REFUSED is of posted writes alone (R16). -/
def DecodeOutcome.refusal : DecodeOutcome → Option Status
  | .closed => some .refusedClosed
  | .halted => some .refusedHalted
  | .unmatched => some .unmapped
  | .notContained _ => some .unmapped
  | .denied _ => some .denied
  | .postingRefused _ => some .denied
  | .accepted _ _ => none

/-- Table 1-5: the error kind of a refusal, for a posted write or for a non-posted request. -/
def DecodeOutcome.errorKind (posted : Bool) : DecodeOutcome → Option ErrorKind
  | .closed => if posted then some .closedWrite else none
  | .halted => none
  | .unmatched => some .unmapped
  | .notContained _ => some .unmapped
  | .denied _ => some .accessDenied
  | .postingRefused _ => some .postingRefused
  | .accepted _ _ => none

/-- Table 1-6: window index, local address of the first word and progress 0, where a window matched. -/
def DecodeOutcome.capture : DecodeOutcome → Option WindowCapture
  | .closed => none
  | .halted => none
  | .unmatched => none
  | .notContained p => some ⟨p.index, p.localAddress, 0⟩
  | .denied p => some ⟨p.index, p.localAddress, 0⟩
  | .postingRefused p => some ⟨p.index, p.localAddress, 0⟩
  | .accepted _ _ => none

/-- The packet fields of a data request, as received. -/
def DataRequest.packetFields (q : DataRequest) : PacketFields :=
  { kindCode := q.kind.code, cls := q.cls, linkAddress := q.linkAddress, length := BitVec.ofNat 5 q.length }

/-- A request other than a posted write carries a tag (Table 1-6). -/
def DataRequest.captureTag (q : DataRequest) : Option Tag :=
  if q.kind = .writePosted then none else some q.tag

/-- R21, Table 1-6: the report of a request refused at decode. -/
def decodeReport (k : ErrorKind) (q : DataRequest) (generation : BitVec 8) (o : DecodeOutcome) : Report :=
  { kind := k, source := .fromDecode, packet := some q.packetFields, tag := q.captureTag,
    generation := some generation, window := o.capture, firstData := q.data.head? }

/-- R60, Table 4-3: the report of a request discarded by the tag check. -/
def tagInUseReport (q : DataRequest) : Report :=
  { kind := .tagInUse, source := .fromDecode, packet := some q.packetFields, tag := some q.tag,
    generation := none, window := none, firstData := q.data.head? }

/-- R21: the error of a refusal is reported, if it has one. -/
def State.reportRefusal (posted : Bool) (q : DataRequest) (generation : BitVec 8) (o : DecodeOutcome) (s : State) : State :=
  match o.errorKind posted with
  | some k => s.report (decodeReport k q generation o)
  | none => s

/-! ## Posted writes -/

/-- R38, R39: the record that an accepted posted write becomes. -/
def newRecord (q : DataRequest) (p : Placement) (generation : BitVec 8) : WriteRecord :=
  { cls := q.cls, linkAddress := q.linkAddress, length := q.length, firstMask := q.firstMask, lastMask := q.lastMask,
    data := q.data, placement := p, generation := generation, progress := 0, retryCount := 0, state := .queued }

/-- R10, R19, R21: a posted write that decode discards. Its credit is released; a write refused while HALTED adds one to
the discarded write count, and any other is reported. -/
def State.discardWrite (q : DataRequest) (o : DecodeOutcome) (s : State) : State :=
  match o with
  | .halted => (s.release .posted).countDiscard
  | .closed => (s.release .posted).reportRefusal true q s.wd.generation o
  | .unmatched => (s.release .posted).reportRefusal true q s.wd.generation o
  | .notContained _ => (s.release .posted).reportRefusal true q s.wd.generation o
  | .denied _ => (s.release .posted).reportRefusal true q s.wd.generation o
  | .postingRefused _ => (s.release .posted).reportRefusal true q s.wd.generation o
  | .accepted _ _ => s

/-- R39: an accepted posted write is appended at the tail. The manual says a place is always free; a queue of 32 records
is the model's fault (log entry 13). -/
def State.appendRecord (q : DataRequest) (p : Placement) (s : State) : Host.Outcome State Fault Refusal :=
  if s.occupancy < Config.postedCapacity then .next { s with pwq := s.pwq ++ [newRecord q p s.wd.generation] }
  else .fault .queueFull

/-- R9, R39: a posted write is decoded, and appended or discarded. -/
def State.takePosted (q : DataRequest) (s : State) : Host.Outcome State Fault Refusal :=
  match decode s.mu.port s.wd.active q with
  | .accepted p _ => s.appendRecord q p
  | .closed => .next (s.discardWrite q .closed)
  | .halted => .next (s.discardWrite q .halted)
  | .unmatched => .next (s.discardWrite q .unmatched)
  | .notContained p => .next (s.discardWrite q (.notContained p))
  | .denied p => .next (s.discardWrite q (.denied p))
  | .postingRefused p => .next (s.discardWrite q (.postingRefused p))

/-! ## Non-posted requests -/

/-- R59: the entry is in use, is no orphan and holds the tag. -/
def TrackerEntry.claims (tag : Tag) (e : TrackerEntry) : Bool := e.inUse && !e.orphan && e.tag == tag

/-- R59: the tag check. -/
def State.tagInUse (tag : Tag) (s : State) : Bool := s.rt.entries.toList.any (TrackerEntry.claims tag)

/-- R61: a FREE entry; the preferred one if it is FREE, else the one of lowest number (log entry 6). -/
def State.freeEntryFor (preferred : Fin 24) (s : State) : Option (Fin 24) :=
  if s.rt.entries[preferred].inUse then (List.finRange 24).find? fun i => !s.rt.entries[i].inUse else some preferred

/-- R61, R62: the kind of an entry. -/
def DataKind.nonPosted : DataKind → NonPostedKind
  | .read => .read
  | .writeConfirmed => .writeConfirmed
  | .writePosted => .writeConfirmed

/-- R61: what every allocation writes; the first state comes with the decode's outcome. -/
def newEntry (q : DataRequest) (generation arrival : BitVec 8) : TrackerEntry :=
  { state := .ready, tag := q.tag, cls := q.cls, kind := q.kind.nonPosted, linkAddress := q.linkAddress,
    length := q.length, firstMask := q.firstMask, lastMask := q.lastMask, data := q.data, placement := none, order := none,
    generation := generation, arrival := arrival, writesAhead := 0, progress := 0, retryCount := 0, status := none,
    orphan := false }

/-- R61, R62: the entry that a request of the decode's outcome gets, with `occupancy` records in the queue. -/
def allocatedEntry (q : DataRequest) (o : DecodeOutcome) (generation arrival : BitVec 8) (occupancy : Nat) : TrackerEntry :=
  let e := newEntry q generation arrival
  match o with
  | .accepted p .strict =>
    { e with placement := some p, order := some .strict, writesAhead := occupancy,
             state := if occupancy = 0 then .ready else .ordered }
  | .accepted p .relaxed => { e with placement := some p, order := some .relaxed }
  | .closed => e.completed .refusedClosed
  | .halted => e.completed .refusedHalted
  | .unmatched => e.completed .unmapped
  | .notContained _ => e.completed .unmapped
  | .denied _ => e.completed .denied
  | .postingRefused _ => e.completed .denied

/-- R58, R61: entry `i` is allocated; a refused one joins the completion list. -/
def State.allocate (i : Fin 24) (q : DataRequest) (o : DecodeOutcome) (s : State) : State :=
  let e := allocatedEntry q o s.wd.generation s.rt.counter s.occupancy
  { s with rt :=
    { entries := s.rt.entries.set i e, counter := s.rt.counter + 1, order := s.rt.order ++ [i],
      completion := if e.state = .complete then s.rt.completion ++ [i] else s.rt.completion } }

/-- R20, R59 to R61: a non-posted request is decoded and handed to the Request Tracker. A refusal's error is reported after
its entry is given. -/
def State.takeNonPosted (q : DataRequest) (preferred : Fin 24) (s : State) : Host.Outcome State Fault Refusal :=
  if s.tagInUse q.tag then .next ((s.release .nonPosted).report (tagInUseReport q))
  else
    match s.freeEntryFor preferred with
    | none => .fault .noFreeEntry
    | some i =>
      let o := decode s.mu.port s.wd.active q
      .next ((s.allocate i q o).reportRefusal false q s.wd.generation o)

/-- R9: a data request is handed over. -/
def State.takeData (q : DataRequest) (preferred : Fin 24) (s : State) : Host.Outcome State Fault Refusal :=
  match q.kind with
  | .writePosted => s.takePosted q
  | .writeConfirmed => s.takeNonPosted q preferred
  | .read => s.takeNonPosted q preferred

end Sys2Proof.Machine
end

