-- ==== Sys2Proof/Machine/Link.lean ====
section
/-! DEFINITION. Machine/Link.lean: the commands of the Link Port: power-on reset, link sessions, received packets
(Chapter 9), the transmit arbiter and the ends of transmissions. -/

namespace Sys2Proof.Machine

/-! ## Sessions -/

/-- POWER_ON_RESET, R158: every block at its power-on values; the commands that wait stay (log entry 1). -/
def execPowerOnReset (s : State) : Host.Outcome State Fault Refusal := .next { State.reset with pending := s.pending }

/-- R170: a CREDIT packet begins. It carries the whole of each pool's returns awaiting, which move to the grants
outstanding, and the session-start flag when the mark is set. -/
def State.beginCredit (s : State) : State :=
  let l := s.link
  let grant (c : CreditPool) : CreditPool := { outstanding := c.outstanding + c.awaiting, awaiting := 0 }
  { s with link := { l with
      posted := grant l.posted, nonPosted := grant l.nonPosted, management := grant l.management, sessionStart := false,
      tx := some ⟨.credit, creditPacket l.posted.awaiting l.nonPosted.awaiting l.management.awaiting l.sessionStart⟩ } }

/-- R160: a pool's free count becomes its returns awaiting. -/
def State.freeCount (s : State) (p : Pool) : Nat := p.capacity - s.inUse p

/-- R160: what the Link Port sets when a session begins, before its first CREDIT. -/
def State.sessionLoaded (s : State) : State :=
  { s with link := { s.link with
      state := .up, seq := 0, skip := 0, sessionStart := true,
      posted := { s.link.posted with awaiting := s.freeCount .posted },
      nonPosted := { s.link.nonPosted with awaiting := s.freeCount .nonPosted },
      management := { s.link.management with awaiting := s.freeCount .management } } }

/-- LINK_UP, R160, R170; no effect while the link is UP (R158). -/
def execLinkUp (s : State) : Host.Outcome State Fault Refusal :=
  match s.link.state with
  | .up => .next s
  | .down => .next s.sessionLoaded.beginCredit

/-- LOSS_OF_LINK_SIGNAL, R158; no effect while the link is DOWN. -/
def execLossOfLinkSignal (s : State) : Host.Outcome State Fault Refusal := .next s.endSession

/-! ## Received packets (R163) -/

/-- R107: LINK_CHECK carries the kind and the source alone. -/
def linkCheckReport : Report :=
  { kind := .linkCheck, source := .fromLink, packet := none, tag := none, generation := none, window := none,
    firstData := none }

/-- R107: the packet fields of a header as received. -/
def Header.packetFields (h : Header) : PacketFields :=
  { kindCode := h.kindCode, cls := h.cls, linkAddress := h.address, length := h.length }

/-- R107: MALFORMED and CREDIT_OVERRUN carry the header as received; the tag is present unless the received kind is
WRITE_POSTED. -/
def headerReport (k : ErrorKind) (h : Header) (data : List Word) : Report :=
  { kind := k, source := .fromLink, packet := some h.packetFields,
    tag := if h.kindCode = DataKind.writePosted.code then none else some h.tag,
    generation := none, window := none, firstData := data.head? }

/-- R144: the verdict on a class. -/
def ManagementUnit.isManager (m : ManagementUnit) (c : ReqClass) : Bool := m.managers.getLsbD c.toNat

/-- R139, R144: the request as its slot takes it. -/
def Header.mgmtRequest (h : Header) (k : MgmtKind) (data : List Word) (verdict : Bool) : MgmtRequest :=
  { kind := k, cls := h.cls, tag := h.tag, address := h.address, length := h.length, data := data, manager := verdict }

/-- R140: a request enters slot `k` as WAITING, last in the arrival order. -/
def State.fillSlot (k : Fin 2) (r : MgmtRequest) (s : State) : State :=
  { s with mu := { s.mu with slots := s.mu.slots.set k (.waiting r), arrivals := s.mu.arrivals ++ [k] } }

/-- R140: slot 0 if it is FREE, else slot 1. The manual says a slot is always there; two occupied slots are the model's
fault (log entry 13). -/
def State.takeManagement (r : MgmtRequest) (s : State) : Host.Outcome State Fault Refusal :=
  if s.mu.slots[0].occupied then
    if s.mu.slots[1].occupied then .fault .noFreeSlot else .next (s.fillSlot 1 r)
  else .next (s.fillSlot 0 r)

/-- R161: a packet that passes every check is routed by its kind. -/
def State.route (k : DownstreamKind) (h : Header) (data : List Word) (preferred : Fin 24) (s : State) :
    Host.Outcome State Fault Refusal :=
  match k with
  | .data d => s.takeData (h.dataRequest d data) preferred
  | .mgmt m => s.takeManagement (h.mgmtRequest m data (s.mu.isManager h.cls))

/-- R163, steps 3 to 5, for a packet of a downstream kind. -/
def State.chargePacket (k : DownstreamKind) (h : Header) (data : List Word) (preferred : Fin 24) (s : State) :
    Host.Outcome State Fault Refusal :=
  if (s.link.pool k.pool).outstanding = 0 then .next (s.report (headerReport .creditOverrun h data))
  else if formWellFormed k h data then (s.consume k.pool).route k h data preferred
  else .next (((s.consume k.pool).release k.pool).report (headerReport .malformed h data))

/-- R163: a received packet is taken whole. An integrity failure is reported before the session ends (R162). -/
def State.takePacket (words : List Word) (preferred : Fin 24) (s : State) : Host.Outcome State Fault Refusal :=
  match readPacket words with
  | none => .next (s.report linkCheckReport).endSession
  | some (h, data) =>
    match DownstreamKind.ofCode h.kindCode with
    | none => .next (s.report (headerReport .malformed h data))
    | some k => s.chargePacket k h data preferred

/-- DOWNSTREAM_PACKET, R163. Packets are received only while the link is UP (R158). -/
def execDownstreamPacket (words : List Word) (preferred : Fin 24) (s : State) : Host.Outcome State Fault Refusal :=
  match s.link.state with
  | .down => .next s
  | .up => s.takePacket words preferred

/-! ## The transmit arbiter (R171, R172) -/

/-- R170: returns are awaiting in at least one pool. -/
def LinkPort.creditStands (l : LinkPort) : Bool :=
  l.posted.awaiting != 0 || l.nonPosted.awaiting != 0 || l.management.awaiting != 0

/-- R172: the notice skip count after a choice of a packet that is no notice. -/
def State.skipRaised (s : State) : State :=
  if s.nq.isEmpty then s
  else { s with link := { s.link with skip := if s.link.skip < Config.skipLimit then s.link.skip + 1 else s.link.skip } }

/-- R142: the reply of slot `k` begins transmission; it stays in its slot until it is sent. -/
def State.beginReply (k : Fin 2) (s : State) : State :=
  match s.mu.slots[k] with
  | .reply r m => { s with link := { s.link with tx := some ⟨.reply k, replyPacket r.tag m⟩ } }
  | .free => s
  | .waiting _ => s
  | .held _ => s

/-- R70: the response of entry `i` begins transmission; the entry stays until it is sent. -/
def State.beginResponse (i : Fin 24) (s : State) : State :=
  { s with link := { s.link with tx := some ⟨.response i, responsePacket s.rt.entries[i]⟩ } }

/-- R130, R131, R172: the head of the Notice Queue leaves it, takes the sequence number, and the skip count becomes 0. -/
def State.beginNotice (n : Notice) (rest : List Notice) (s : State) : State :=
  { s with nq := rest, link := { s.link with
      seq := s.link.seq + 1, skip := 0, tx := some ⟨.notice, noticePacket s.link.seq n⟩ } }

/-- R171, the last three of the five cases: a notice at skip count 4, a response, a notice. -/
def State.chooseData (s : State) : State :=
  match s.nq, s.rt.completion with
  | [], [] => s
  | n :: rest, [] => s.beginNotice n rest
  | [], i :: _ => s.beginResponse i
  | n :: rest, i :: _ =>
    if s.link.skip = Config.skipLimit then s.beginNotice n rest else s.skipRaised.beginResponse i

/-- R171: the choice among the candidates standing. -/
def State.chooseUpstream (s : State) : State :=
  if s.link.creditStands then s.skipRaised.beginCredit
  else
    match s.mu.replies with
    | k :: _ => s.skipRaised.beginReply k
    | [] => s.chooseData

/-- TRANSMIT_CHOICE, R171: a choice is made when the link is UP, no packet is in transmission and a candidate stands;
else nothing happens. -/
def execTransmitChoice (s : State) : Host.Outcome State Fault Refusal :=
  match s.link.state, s.link.tx with
  | .up, none => .next s.chooseUpstream
  | .up, some _ => .next s
  | .down, _ => .next s

/-! ## The ends of transmissions (R166) -/

/-- The upstream link is free again. -/
def State.clearTx (s : State) : State := { s with link := { s.link with tx := none } }

/-- R142: slot `k` becomes FREE and leaves both orders. -/
def State.freeSlot (k : Fin 2) (s : State) : State :=
  { s with mu := { s.mu with slots := s.mu.slots.set k .free, arrivals := s.mu.arrivals.filter (· != k),
                             replies := s.mu.replies.filter (· != k) } }

/-- The source of the packet in transmission. -/
def LinkPort.txSource (l : LinkPort) : Option TxSource := l.tx.map Transmission.source

/-- RESPONSE_SENT, R71, when the packet in transmission is a response. -/
def execResponseSent (s : State) : Host.Outcome State Fault Refusal :=
  match s.link.txSource with
  | some (.response i) => .next (s.clearTx.freeEntry i)
  | some (.reply _) => .next s
  | some .credit => .next s
  | some .notice => .next s
  | none => .next s

/-- MGMT_REPLY_SENT, R142, when the packet in transmission is a reply. -/
def execMgmtReplySent (s : State) : Host.Outcome State Fault Refusal :=
  match s.link.txSource with
  | some (.reply k) => .next ((s.clearTx.freeSlot k).release .management)
  | some (.response _) => .next s
  | some .credit => .next s
  | some .notice => .next s
  | none => .next s

/-- UPSTREAM_TRANSMISSION_ENDS, R166, when the packet in transmission is a CREDIT or a NOTICE. -/
def execUpstreamTransmissionEnds (s : State) : Host.Outcome State Fault Refusal :=
  match s.link.txSource with
  | some .credit => .next s.clearTx
  | some .notice => .next s.clearTx
  | some (.response _) => .next s
  | some (.reply _) => .next s
  | none => .next s

end Sys2Proof.Machine
end

