-- ==== Sys2Proof/Machine/LocalBus.lean ====
section
/-! DEFINITION. Machine/LocalBus.lean: the commands of the Local Bus Engine (Chapter 5): the arbitration decision, the
grant, the three answers and the timers. -/

namespace Sys2Proof.Machine

/-! ## Offers and the decision (R41, R64, R84 to R87) -/

/-- R41: the queue offers its head while it is QUEUED, and nothing while a RESET_PART is pending (R55). -/
def State.headOffered (s : State) : Bool :=
  match s.pwq with
  | [] => false
  | r :: _ => r.state == .queued && !s.mu.resetPending

/-- R64: the tracker offers the READY entry that is oldest in allocation order, and nothing while a RESET_PART is pending
(R80). -/
def State.readyOffered (s : State) : Option (Fin 24) :=
  if s.mu.resetPending then none else s.rt.order.find? fun i => s.rt.entries[i].state == .ready

/-- R85, Table 5-2: the item granted. -/
def State.decision (s : State) : Option CurrentItem :=
  match s.headOffered, s.readyOffered with
  | true, none => some .head
  | false, some i => some (.entry i)
  | true, some i => if s.lbe.streak < s.mu.fairness.toNat then some .head else some (.entry i)
  | false, none => none

/-- R98, R103: the interval that a start or restart of the local access timer reads; time itself is not modelled (log
entry 8). -/
def State.accessInterval (s : State) : Nat := s.mu.accessTimeout.toNat * Config.accessTimeoutUnit

/-- R96, R103: the interval that a start of a backoff timer reads. -/
def State.backoffInterval (s : State) : Nat := s.mu.retryBackoff.toNat * Config.backoffUnit

/-- The head of the queue replaced. -/
def State.setHead (f : WriteRecord → WriteRecord) (s : State) : State :=
  match s.pwq with
  | [] => s
  | r :: rest => { s with pwq := f r :: rest }

/-- Entry `i` changed. -/
def State.updateEntry (i : Fin 24) (f : TrackerEntry → TrackerEntry) (s : State) : State :=
  { s with rt := s.rt.setEntry i (f s.rt.entries[i]) }

/-- R84, R88: the engine moves to REQUESTING with the item granted, raises the bus request and starts the timer. -/
def State.request (c : CurrentItem) (streak : Nat) (s : State) : State :=
  { s with lbe := { s.lbe with engine := .requesting, current := some c, streak := streak,
                               accessTimer := some s.accessInterval } }

/-- R42, R86: the head is granted; the streak rises when a READY entry was offered beside it. -/
def State.grantHead (s : State) : State :=
  let streak := if s.readyOffered.isSome then s.lbe.streak + 1 else s.lbe.streak
  (s.request .head streak).setHead fun r => { r with state := .active }

/-- R99: the parity mark of an entry granted with progress 0 is cleared. -/
def State.clearMark (i : Fin 24) (s : State) : State :=
  if s.rt.entries[i].progress = 0 then
    { s with lbe := { s.lbe with parityMarks := s.lbe.parityMarks.set i false } }
  else s

/-- R65, R86: entry `i` is granted; the streak becomes 0. -/
def State.grantEntry (i : Fin 24) (s : State) : State :=
  ((s.clearMark i).request (.entry i) 0).updateEntry i fun e => { e with state := .active }

/-- ARBITRATION_DECISION, R84: when the engine is IDLE and an offer stands; else nothing happens (log
entries 2 and 3). -/
def execArbitrationDecision (s : State) : Host.Outcome State Fault Refusal :=
  match s.lbe.engine, s.decision with
  | .idle, some .head => .next s.grantHead
  | .idle, some (.entry i) => .next (s.grantEntry i)
  | .idle, none => .next s
  | .requesting, _ => .next s
  | .owning, _ => .next s

/-! ## Cycles (R88 to R92) -/

/-- R42: what a write record supplies. -/
def WriteRecord.item (r : WriteRecord) : Item :=
  { placement := r.placement, length := r.length, firstMask := r.firstMask, lastMask := r.lastMask, data := r.data,
    direction := .write, progress := r.progress, retryCount := r.retryCount }

/-- R65: what a tracker entry supplies; the kind decides the direction. A missing placement: log entry 22. -/
def TrackerEntry.item (e : TrackerEntry) : Option Item :=
  e.placement.map fun p =>
    { placement := p, length := e.length, firstMask := e.firstMask, lastMask := e.lastMask, data := e.data,
      direction := match e.kind with
        | .read => .read
        | .writeConfirmed => .write
      progress := e.progress, retryCount := e.retryCount }

/-- The item that the engine runs. -/
def State.currentItem (s : State) : Option Item :=
  match s.lbe.current with
  | none => none
  | some .head => s.pwq.head?.map WriteRecord.item
  | some (.entry i) => s.rt.entries[i].item

/-- R89: the local byte enables of the word at `position`, after the lane swap. -/
def Item.enablesAt (it : Item) (position : Nat) : Nibble :=
  swapEnables it.placement.laneSwap (maskAt it.length it.firstMask it.lastMask position)

/-- R90: the word that a write drives at `position`, after the lane swap. -/
def Item.dataAt (it : Item) (position : Nat) : Word :=
  swapWord it.placement.laneSwap (it.data.getD position 0)

/-- The beat of the word at `position`, within a cycle: its enables and, for a write, its data and parity. -/
def Item.beatOf (it : Item) (position : Nat) (c : Cycle) : Cycle :=
  match it.direction with
  | .read => { c with enables := it.enablesAt position, writeData := none, parity := Vector.replicate 4 none }
  | .write =>
    { c with enables := it.enablesAt position, writeData := some (it.dataAt position),
             parity := drivenParity (it.enablesAt position) (it.dataAt position) }

/-- R89: the address phase of a cycle that begins at `position`, and its first beat. -/
def Item.cycleAt (it : Item) (position : Nat) : Cycle :=
  it.beatOf position
    { address := wordAt it.placement.localAddress position, direction := it.direction, attr := it.placement.attr,
      beats := beatsFrom it.placement.burstAllowed it.length position, enables := 0, writeData := none,
      parity := Vector.replicate 4 none }

/-- The beat at `position` is driven. -/
def State.drive (it : Item) (position : Nat) (c : Cycle) (s : State) : State :=
  { s with lbe := { s.lbe with beat := some ⟨position, it.direction⟩, cycle := some c } }

/-- R88: the engine enters OWNING and begins the first cycle of the item, at its progress. -/
def State.beginOwning (it : Item) (s : State) : State :=
  State.drive it it.progress (it.cycleAt it.progress) { s with lbe := { s.lbe with engine := .owning } }

/-- BUS_GRANT, R88; a grant that arrives when the engine does not wait for one is not taken. -/
def execBusGrant (s : State) : Host.Outcome State Fault Refusal :=
  match s.lbe.engine, s.currentItem with
  | .requesting, some it => .next (s.beginOwning it)
  | .requesting, none => .next s
  | .idle, _ => .next s
  | .owning, _ => .next s

/-! ## The end of a transaction (R93 to R101) -/

/-- The engine releases the bus request, stops the local access timer, drives nothing and returns to IDLE. -/
def State.releaseBus (s : State) : State :=
  { s with lbe := { s.lbe with engine := .idle, accessTimer := none, beat := none, cycle := none } }

/-- R100: the current item is cleared. -/
def State.clearCurrent (s : State) : State := { s with lbe := { s.lbe with current := none } }

/-- R46, R47: the head leaves the queue and retires. -/
def State.retireHead (s : State) : State :=
  match s.pwq with
  | [] => s
  | r :: rest => State.retirement r.generation { s with pwq := rest }

/-- R67, R79: entry `i` completes with a status, or becomes FREE if it is an orphan. -/
def State.finishEntry (i : Fin 24) (st : Status) (s : State) : State :=
  if s.rt.entries[i].orphan then s.freeEntry i else s.completeEntry i st

/-- R100, Table 5-3: success or a failure is handed back to the store of the current item. -/
def State.handBack (st : Status) (s : State) : State :=
  match s.lbe.current with
  | none => s
  | some .head => s.retireHead
  | some (.entry i) => s.finishEntry i st

/-- R101, Tables 3-5 and 4-7: the capture of a failed transaction. -/
def failureWindow (it : Item) : WindowCapture := ⟨it.placement.index, it.placement.localAddress, it.progress⟩

/-- R47, Table 3-5. -/
def recordReport (k : ErrorKind) (r : WriteRecord) : Report :=
  { kind := k, source := .fromLocal,
    packet := some { kindCode := DataKind.writePosted.code, cls := r.cls, linkAddress := r.linkAddress,
                     length := BitVec.ofNat 5 r.length },
    tag := none, generation := some r.generation, window := some (failureWindow r.item), firstData := r.data.head? }

/-- R74, Table 4-7. -/
def entryReport (k : ErrorKind) (e : TrackerEntry) : Report :=
  { kind := k, source := .fromLocal,
    packet := some { kindCode := e.kind.code, cls := e.cls, linkAddress := e.linkAddress,
                     length := BitVec.ofNat 5 e.length },
    tag := some e.tag, generation := some e.generation, window := e.item.map failureWindow,
    firstData := match e.kind with
      | .read => none
      | .writeConfirmed => e.data.head? }

/-- The report of a failure of the current item, as the item stands at the end of the transaction. -/
def State.failureReport (f : Failure) (s : State) : Option Report :=
  match s.lbe.current with
  | none => none
  | some .head => s.pwq.head?.map (recordReport f.errorKind)
  | some (.entry i) => some (entryReport f.errorKind s.rt.entries[i])

/-- R108: a report, if there is one, is taken. -/
def State.reportOption (r : Option Report) (s : State) : State :=
  match r with
  | some r => s.report r
  | none => s

/-- R100: the transaction ends with success. -/
def State.endOk (s : State) : State := (s.releaseBus.handBack .ok).clearCurrent

/-- R100, R101: the transaction ends with a failure; the handing-back comes first and the report second. R100 puts the next
decision after the handing-back and says no more; that the report, and a halt it causes, stand in the same step, and so
before that decision, is the model's choice (log entry 24). -/
def State.endFailed (f : Failure) (s : State) : State :=
  State.reportOption (s.failureReport f) (s.releaseBus.handBack f.status).clearCurrent

/-! ## ACK (R93, R99) -/

/-- R66, R91: the word that a read stores: the local lanes under the same exchange, with every byte that the link-side
enables do not enable set to zero. -/
def Item.readWord (it : Item) (lanes : Word) : Word :=
  maskWord (maskAt it.length it.firstMask it.lastMask it.progress) (swapWord it.placement.laneSwap lanes)

/-- R66, R93: a word of a tracker entry is acknowledged. -/
def TrackerEntry.acknowledged (e : TrackerEntry) (stored : Word) : TrackerEntry :=
  match e.kind with
  | .read => { e with progress := e.progress + 1, data := e.data ++ [stored] }
  | .writeConfirmed => { e with progress := e.progress + 1 }

/-- R99: the parity mark of entry `i` is set by a parity error on an enabled lane of a read, and else left as it is. -/
def State.checkParity (i : Fin 24) (it : Item) (lanes : Word) (parity : Nibble) (s : State) : State :=
  match it.direction with
  | .write => s
  | .read =>
    if parityError (it.enablesAt it.progress) lanes parity then
      { s with lbe := { s.lbe with parityMarks := s.lbe.parityMarks.set i true } }
    else s

/-- R93: the word is handed to the item's store, and the item's progress advances by one. -/
def State.acknowledge (it : Item) (lanes : Word) (parity : Nibble) (s : State) : State :=
  match s.lbe.current with
  | none => s
  | some .head => s.setHead fun r => { r with progress := r.progress + 1 }
  | some (.entry i) => (s.checkParity i it lanes parity).updateEntry i fun e => e.acknowledged (it.readWord lanes)

/-- R92: the cycle at the next word: the next beat of the burst, or a new single-word cycle. -/
def Item.nextCycle (it : Item) (c : Cycle) : Cycle :=
  if 2 ≤ c.beats then it.beatOf (it.progress + 1) c else it.cycleAt (it.progress + 1)

/-- R93, R98: the local access timer is restarted and the next beat is driven. -/
def State.nextBeat (it : Item) (s : State) : State :=
  match s.lbe.cycle with
  | none => s
  | some c =>
    State.drive it (it.progress + 1) (it.nextCycle c)
      { s with lbe := { s.lbe with accessTimer := some s.accessInterval } }

/-- R99: the last word of a read is acknowledged and its entry carries a set parity mark. -/
def State.parityMarked (s : State) : Bool :=
  match s.lbe.current with
  | none => false
  | some .head => false
  | some (.entry i) => s.rt.entries[i].kind == .read && s.lbe.parityMarks[i]

/-- R93: after the last word, the transaction ends with success or, for a read with its mark set, with DATA_PARITY. -/
def State.endLastWord (s : State) : State := if s.parityMarked then s.endFailed .dataParity else s.endOk

/-- R93: an ACK answer to the beat in progress. -/
def State.takeAck (it : Item) (lanes : Word) (parity : Nibble) (s : State) : State :=
  if it.progress + 1 < it.length then (s.acknowledge it lanes parity).nextBeat it
  else (s.acknowledge it lanes parity).endLastWord

/-- R94: the item whose beat is in progress, if one is. -/
def State.beatItem (s : State) : Option Item :=
  match s.lbe.engine, s.lbe.beat with
  | .owning, some _ => s.currentItem
  | .owning, none => none
  | .idle, _ => none
  | .requesting, _ => none

/-- ACK_ANSWER, R93; an answer with no beat in progress is not taken (R94). -/
def execAckAnswer (lanes : Word) (parity : Nibble) (s : State) : Host.Outcome State Fault Refusal :=
  match s.beatItem with
  | some it => .next (s.takeAck it lanes parity)
  | none => .next s

/-! ## RETRY (R95, R44, R53, R68, R77, R79) -/

/-- R44, R53: the head answered RETRY within the limit. -/
def State.retryHead (s : State) : State :=
  match s.pwq with
  | [] => s
  | r :: rest =>
    match s.mu.port with
    | .halted => State.discardRecord { s with pwq := rest } r
    | .opened => { s with
        pwq := { r with retryCount := r.retryCount + 1, state := .backoff } :: rest,
        lbe := { s.lbe with headTimer := some s.backoffInterval } }
    | .closed => { s with
        pwq := { r with retryCount := r.retryCount + 1, state := .backoff } :: rest,
        lbe := { s.lbe with headTimer := some s.backoffInterval } }

/-- R68: an entry enters BACKOFF and its timer starts. -/
def State.backoffEntry (i : Fin 24) (s : State) : State :=
  State.updateEntry i (fun e => { e with retryCount := e.retryCount + 1, state := .backoff })
    { s with lbe := { s.lbe with entryTimers := s.lbe.entryTimers.set i (some s.backoffInterval) } }

/-- R68, R77, R79: entry `i` answered RETRY within the limit. -/
def State.retryEntry (i : Fin 24) (s : State) : State :=
  if s.rt.entries[i].orphan then s.freeEntry i
  else
    match s.mu.port with
    | .halted => s.completeEntry i .refusedHalted
    | .opened => s.backoffEntry i
    | .closed => s.backoffEntry i

/-- R95: the store decides what becomes of the item. -/
def State.retryWithin (s : State) : State :=
  match s.lbe.current with
  | none => s
  | some .head => s.retryHead
  | some (.entry i) => s.retryEntry i

/-- R95: a RETRY answer to the beat in progress, against the retry limit read at this answer. -/
def State.takeRetry (it : Item) (s : State) : State :=
  if s.mu.retryLimit.toNat < it.retryCount + 1 then s.endFailed .retryLimit
  else s.releaseBus.retryWithin.clearCurrent

/-- RETRY_ANSWER, R95; not taken with no beat in progress (R94). -/
def execRetryAnswer (s : State) : Host.Outcome State Fault Refusal :=
  match s.beatItem with
  | some it => .next (s.takeRetry it)
  | none => .next s

/-! ## ERROR and the timers -/

/-- ERROR_ANSWER, R97; not taken with no beat in progress (R94). -/
def execErrorAnswer (s : State) : Host.Outcome State Fault Refusal :=
  match s.beatItem with
  | some _ => .next (s.endFailed .targetError)
  | none => .next s

/-- LOCAL_ACCESS_TIMER_EXPIRY, R98, in REQUESTING or OWNING; a stopped timer does not expire. -/
def execLocalAccessTimerExpiry (s : State) : Host.Outcome State Fault Refusal :=
  match s.lbe.accessTimer with
  | some _ => .next (s.endFailed .timeout)
  | none => .next s

/-- R45: the interval of the head expires; a head in BACKOFF becomes QUEUED. -/
def State.headExpires (s : State) : State :=
  State.setHead (fun r => if r.state = .backoff then { r with state := .queued } else r)
    { s with lbe := { s.lbe with headTimer := none } }

/-- R69: the interval of entry `i` expires; an entry in BACKOFF becomes READY. -/
def State.entryExpires (i : Fin 24) (s : State) : State :=
  State.updateEntry i (fun e => if e.state = .backoff then { e with state := .ready } else e)
    { s with lbe := { s.lbe with entryTimers := s.lbe.entryTimers.set i none } }

/-- BACKOFF_INTERVAL_EXPIRY, R96; a stopped timer does not expire. -/
def execBackoffIntervalExpiry (item : BackoffItem) (s : State) : Host.Outcome State Fault Refusal :=
  match item with
  | .head =>
    match s.lbe.headTimer with
    | some _ => .next s.headExpires
    | none => .next s
  | .entry i =>
    match s.lbe.entryTimers[i] with
    | some _ => .next (s.entryExpires i)
    | none => .next s

end Sys2Proof.Machine
end

