-- ==== Sys2Proof/Machine/Objects.lean ====
section
/-! DEFINITION. Machine/Objects.lean: the management object map (Table 11-8), the value of every object and the write of
every read-write one (R145, R146, R180, R181). -/

namespace Sys2Proof.Machine

/-- Table 11-8: the objects of the map. -/
inductive ObjectId where
  | identity | portStatus | busTiming | policy | noticePort | occupancy
  | recordMask | severityMap | notifyEnables | recordStatus
  | capture (n : Fin 6)
  | nextErrors | errorCounts
  | staging (i : Fin 16) (n : Fin 4)
  | active (i : Fin 16) (n : Fin 4)
  deriving DecidableEq, Repr

/-- The bank object at an offset within its bank: entry offset / 4, word offset mod 4 (R23). -/
def bankObject (mk : Fin 16 → Fin 4 → ObjectId) (offset : Nat) : ObjectId :=
  mk (Fin.ofNat 16 (offset / 4)) (Fin.ofNat 4 offset)

/-- Table 11-8: the object at an index; none outside the map. -/
def objectAt (index : Nat) : Option ObjectId :=
  if index = 0x000 then some .identity
  else if index = 0x001 then some .portStatus
  else if index = 0x002 then some .busTiming
  else if index = 0x003 then some .policy
  else if index = 0x004 then some .noticePort
  else if index = 0x005 then some .occupancy
  else if index = 0x010 then some .recordMask
  else if index = 0x011 then some .severityMap
  else if index = 0x012 then some .notifyEnables
  else if index = 0x013 then some .recordStatus
  else if 0x014 ≤ index ∧ index ≤ 0x019 then some (.capture (Fin.ofNat 6 (index - 0x014)))
  else if index = 0x01A then some .nextErrors
  else if index = 0x01B then some .errorCounts
  else if 0x100 ≤ index ∧ index ≤ 0x13F then some (bankObject .staging (index - 0x100))
  else if 0x200 ≤ index ∧ index ≤ 0x23F then some (bankObject .active (index - 0x200))
  else none

/-- Table 11-8, second column. -/
def ObjectId.writable : ObjectId → Bool
  | .identity => false
  | .portStatus => false
  | .busTiming => true
  | .policy => true
  | .noticePort => true
  | .occupancy => false
  | .recordMask => true
  | .severityMap => true
  | .notifyEnables => true
  | .recordStatus => false
  | .capture _ => false
  | .nextErrors => false
  | .errorCounts => false
  | .staging _ _ => true
  | .active _ _ => false

/-! ## Values -/

/-- Table 11-9: the four words of a window entry. -/
def WindowEntry.word (e : WindowEntry) (n : Fin 4) : Word :=
  match n with
  | 0 => placeBit 0 e.enabled ||| place 4 e.sizeCode ||| placeBit 9 e.postingAllowed ||| placeBit 10 e.order.bit |||
      place 12 e.laneSwap.code ||| placeBit 14 e.burstAllowed ||| place 16 e.attr
  | 1 => place 12 e.linkBase
  | 2 => place 12 e.translationBase
  | 3 => place 0 e.rights

/-- A capture field's bits, zero when the field is absent (R181). -/
def placeOption {n : Nat} (lo : Nat) (v : Option (BitVec n)) : Word :=
  match v with
  | some b => place lo b
  | none => 0

/-- Table 11-10, object 019H: the presence bits. -/
def Report.presence (r : Report) : Word :=
  placeBit 0 r.packet.isSome ||| placeBit 1 r.tag.isSome ||| placeBit 2 r.generation.isSome |||
    placeBit 3 r.window.isSome ||| placeBit 4 r.firstData.isSome

/-- Table 11-10: the six words of a FULL record. -/
def ErrorRecord.word (e : ErrorRecord) (n : Fin 6) : Word :=
  let r := e.report
  match n with
  | 0 => place 0 (BitVec.ofNat 4 r.kind.number.val) ||| place 4 r.source.code ||| place 6 e.severity.code |||
      placeOption 8 (r.packet.map PacketFields.kindCode) ||| placeOption 12 (r.packet.map PacketFields.cls) |||
      placeOption 16 r.tag ||| placeOption 24 (r.packet.map PacketFields.length)
  | 1 => placeOption 2 (r.packet.map PacketFields.linkAddress)
  | 2 => placeOption 2 (r.window.map WindowCapture.localAddress)
  | 3 => placeOption 0 r.generation ||| placeOption 8 (r.window.map fun w => BitVec.ofNat 4 w.index.val) |||
      placeOption 16 (r.window.map fun w => BitVec.ofNat 5 w.progress)
  | 4 => placeOption 0 r.firstData
  | 5 => r.presence

/-- Table 11-8 (011H): the severity map as a word, kind n in bits 2n+1..2n. -/
def severityWord (m : Vector Severity 13) : Word :=
  (List.finRange 13).foldl (fun w i => w ||| place (2 * i.val) m[i].code) 0

/-- Table 11-8, Table 11-10 and R181: the value that a read of an object returns. Bits of no field are zero (R180; for the
read-only objects DEDUCED, log entry 25). -/
def State.readObject (s : State) : ObjectId → Word
  | .identity => Config.identity
  | .portStatus =>
    place 0 s.mu.port.code ||| placeBit 2 (s.link.state == .up) ||| placeBit 3 (s.wd.commit == .draining) |||
      place 8 s.wd.generation ||| placeNat 16 6 s.wd.drain
  | .busTiming => place 0 s.mu.accessTimeout ||| place 16 s.mu.retryLimit
  | .policy =>
    place 0 s.mu.retryBackoff ||| place 8 s.mu.fairness ||| placeBit 12 s.mu.haltOnFatal ||| place 16 s.mu.managers
  | .noticePort => placeBit 0 s.mu.portEnable ||| place 4 s.mu.portBase
  | .occupancy => placeNat 0 6 s.occupancy ||| placeNat 8 5 s.inUseCount ||| placeNat 16 4 s.nq.length
  | .recordMask => place 0 s.ecu.mask
  | .severityMap => severityWord s.ecu.severityMap
  | .notifyEnables => place 0 s.ecu.notify
  | .recordStatus => placeBit 0 s.ecu.record.isSome ||| place 2 (worstCode s.ecu.worst) ||| place 16 s.ecu.stamp
  | .capture n =>
    match s.ecu.record with
    | some e => e.word n
    | none => 0
  | .nextErrors => place 0 s.ecu.nextErrors
  | .errorCounts => place 0 s.ecu.overflow ||| place 16 s.ecu.discarded
  | .staging i n => s.wd.staging[i].word n
  | .active i n => s.wd.active[i].word n

/-! ## Writes -/

/-- R180: every field of the word written holds a value in the field's range. -/
def ObjectId.inRange (o : ObjectId) (w : Word) : Bool :=
  match o with
  | .busTiming => field w 0 12 != 0 && field w 16 4 != 0
  | .policy => field w 0 8 != 0 && field w 8 4 != 0 && field w 16 4 != 0
  | .severityMap => (List.finRange 13).all fun i => field w (2 * i.val) 2 != 3
  | .identity => true
  | .portStatus => true
  | .noticePort => true
  | .occupancy => true
  | .recordMask => true
  | .notifyEnables => true
  | .recordStatus => true
  | .capture _ => true
  | .nextErrors => true
  | .errorCounts => true
  | .staging _ _ => true
  | .active _ _ => true

/-- Table 11-9, R23: a staging entry with one of its words written; bits that belong to no field are ignored. -/
def WindowEntry.written (e : WindowEntry) (n : Fin 4) (w : Word) : WindowEntry :=
  match n with
  | 0 =>
    { e with
      enabled := w.getLsbD 0, sizeCode := field w 4 5, postingAllowed := w.getLsbD 9
      order := if w.getLsbD 10 then .relaxed else .strict
      laneSwap := LaneSwap.ofCode (field w 12 2), burstAllowed := w.getLsbD 14, attr := field w 16 4 }
  | 1 => { e with linkBase := field w 12 20 }
  | 2 => { e with translationBase := field w 12 20 }
  | 3 => { e with rights := field w 0 8 }

/-- R110: the map that a word of object 011H gives; a code of 3 is refused before this and would leave its kind's
severity as it was. -/
def severityMapOf (old : Vector Severity 13) (w : Word) : Vector Severity 13 :=
  Vector.ofFn fun i => (Severity.ofCode (field w (2 * i.val) 2)).getD old[i]

/-- R146: one object takes the word written. Only read-write objects come here; a read-only one would be left alone. -/
def State.writeObject (s : State) (o : ObjectId) (w : Word) : State :=
  match o with
  | .busTiming => { s with mu := { s.mu with accessTimeout := field w 0 12, retryLimit := field w 16 4 } }
  | .policy =>
    { s with mu := { s.mu with retryBackoff := field w 0 8, fairness := field w 8 4, haltOnFatal := w.getLsbD 12,
                               managers := field w 16 4 } }
  | .noticePort => { s with mu := { s.mu with portEnable := w.getLsbD 0, portBase := field w 4 28 } }
  | .recordMask => { s with ecu := { s.ecu with mask := field w 0 13 } }
  | .severityMap => { s with ecu := { s.ecu with severityMap := severityMapOf s.ecu.severityMap w } }
  | .notifyEnables => { s with ecu := { s.ecu with notify := field w 0 3 } }
  | .staging i n => { s with wd := { s.wd with staging := s.wd.staging.set i (s.wd.staging[i].written n w) } }
  | .identity => s
  | .portStatus => s
  | .occupancy => s
  | .recordStatus => s
  | .capture _ => s
  | .nextErrors => s
  | .errorCounts => s
  | .active _ _ => s

/-! ## Ranges of objects (R145, R146) -/

/-- R145: the consecutive indices from `first` upward. -/
def objectRange (first : Nat) (n : Nat) : List Nat := (List.range n).map (first + ·)

/-- The objects of a range, if every index lies in the map. -/
def objectsAt : List Nat → Option (List ObjectId)
  | [] => some []
  | i :: rest =>
    match objectAt i, objectsAt rest with
    | some o, some os => some (o :: os)
    | some _, none => none
    | none, _ => none

/-- R146: the three checks of one object, in order. -/
def checkWrite (index : Nat) (w : Word) : Except MgmtStatus ObjectId :=
  match objectAt index with
  | none => .error .badObject
  | some o => if !o.writable then .error .readOnly else if !o.inRange w then .error .badValue else .ok o

/-- R146: the objects in order of rising index; the first check that fails gives the status. -/
def checkWrites : List (Nat × Word) → Except MgmtStatus (List (ObjectId × Word))
  | [] => .ok []
  | (i, w) :: rest =>
    match checkWrite i w with
    | .error st => .error st
    | .ok o =>
      match checkWrites rest with
      | .error st => .error st
      | .ok os => .ok ((o, w) :: os)

/-- R146: all objects are written at one moment. -/
def State.writeObjects (s : State) (ws : List (ObjectId × Word)) : State :=
  ws.foldl (fun t ow => t.writeObject ow.1 ow.2) s

end Sys2Proof.Machine
end

