-- ==== Sys2Proof/Machine/Management.lean ====
section
/-! DEFINITION. Machine/Management.lean: the execution of the management slots (R141, R144), the management requests and
commands (Chapters 2, 6 and 8) and RESET_PART (R156, R157). -/

namespace Sys2Proof.Machine

/-! ## Which slot is executed -/

/-- The request of a WAITING slot. -/
def Slot.waitingRequest : Slot → Option MgmtRequest
  | .waiting r => some r
  | .free => none
  | .held _ => none
  | .reply _ _ => none

/-- R141: the oldest WAITING slot in arrival order, and its request, unless a RESET_PART is pending. -/
def State.nextWaiting (s : State) : Option (Fin 2 × MgmtRequest) :=
  if s.mu.resetPending then none
  else s.mu.arrivals.findSome? fun k => (s.mu.slots[k].waitingRequest).map fun r => (k, r)

/-- The command that a request names; none for a request that is no MGMT_COMMAND. -/
def MgmtRequest.command (r : MgmtRequest) : Option CommandCode :=
  match r.kind with
  | .mgmtCommand => CommandCode.ofAddress r.address
  | .mgmtRead => none
  | .mgmtWrite => none

/-- R107: the report of a management request from a class that is not a manager class. -/
def deniedReport (r : MgmtRequest) : Report :=
  { kind := .mgmtDenied, source := .fromManagement,
    packet := some { kindCode := r.kind.code, cls := r.cls, linkAddress := r.address, length := r.length },
    tag := some r.tag, generation := none, window := none, firstData := r.data.head? }

/-- R144: a request whose verdict is "not a manager" is reported and answered DENIED. The reply is ready at the end of the
step (R141; log entry 9). -/
def State.denyRequest (k : Fin 2) (r : MgmtRequest) (s : State) : State :=
  (s.report (deniedReport r)).placeReply k (bareReply .denied)

/-- R141: the oldest WAITING slot is executed, if the command at hand is the one its request calls for (`sel`); the request
of a manager class has the effect `body`, and any other is denied. -/
def State.executeIf (sel : MgmtRequest → Bool) (body : Fin 2 → MgmtRequest → State → State) (s : State) : State :=
  match s.nextWaiting with
  | none => s
  | some (k, r) => if sel r then (if r.manager then body k r s else s.denyRequest k r) else s

/-! ## Objects -/

/-- R145: the reply of a MGMT_READ. -/
def State.readReply (r : MgmtRequest) (s : State) : MgmtReply :=
  match objectsAt (objectRange r.address.toNat r.length.toNat) with
  | some os => doneReply (os.map s.readObject)
  | none => bareReply .badObject

/-- R145. -/
def State.performRead (k : Fin 2) (r : MgmtRequest) (s : State) : State := s.placeReply k (s.readReply r)

/-- MGMT_READ, R145. -/
def execMgmtRead (s : State) : Host.Outcome State Fault Refusal :=
  .next (s.executeIf (fun r => r.kind == .mgmtRead) State.performRead)

/-- R146: the objects a MGMT_WRITE covers, checked in order. -/
def MgmtRequest.writes (r : MgmtRequest) : Except MgmtStatus (List (ObjectId × Word)) :=
  checkWrites ((objectRange r.address.toNat r.length.toNat).zip r.data)

/-- R153: halt-on-fatal went from disabled to enabled with the worst severity FATAL, so the port halts in the same step. -/
def State.haltIfEnabled (before : Bool) (s : State) : State :=
  if before = false ∧ s.mu.haltOnFatal = true ∧ s.ecu.worst = some .fatal ∧ s.mu.port ≠ .halted then s.enterHalted else s

/-- R146, R153: a MGMT_WRITE writes all of its objects or none; the reply is ready at the end of the step. -/
def State.performWrite (k : Fin 2) (r : MgmtRequest) (s : State) : State :=
  match r.writes with
  | .error st => s.placeReply k (bareReply st)
  | .ok ws => ((s.writeObjects ws).haltIfEnabled s.mu.haltOnFatal).placeReply k (doneReply [])

/-- MGMT_WRITE, R146. -/
def execMgmtWrite (s : State) : Host.Outcome State Fault Refusal :=
  .next (s.executeIf (fun r => r.kind == .mgmtWrite) State.performWrite)

/-- R148, R153: the request is a MGMT_WRITE of a manager class that succeeds and changes halt-on-fatal from disabled to
enabled. -/
def State.enablesHalt (s : State) (r : MgmtRequest) : Bool :=
  r.kind == .mgmtWrite && r.manager && !s.mu.haltOnFatal &&
    match r.writes with
    | .ok ws => (s.writeObjects ws).mu.haltOnFatal
    | .error _ => false

/-- HALT_ON_FATAL_ENABLE, R153: the MGMT_WRITE that makes this change; any other request is left to its own command (log
entry 4). -/
def execHaltOnFatalEnable (s : State) : Host.Outcome State Fault Refusal :=
  .next (s.executeIf s.enablesHalt State.performWrite)

/-! ## OPEN and CLOSE -/

/-- The port state replaced. -/
def State.setPort (p : PortState) (s : State) : State := { s with mu := { s.mu with port := p } }

/-- R150. -/
def State.performOpen (k : Fin 2) (_ : MgmtRequest) (s : State) : State :=
  match s.mu.port with
  | .closed => (s.setPort .opened).placeReply k (doneReply [])
  | .opened => s.placeReply k (bareReply .wrongState)
  | .halted =>
    if s.ecu.worst = some .fatal ∧ s.mu.haltOnFatal = true then s.placeReply k (bareReply .errorPending)
    else (s.setPort .opened).placeReply k (doneReply [])

/-- OPEN, R150. -/
def execOpenPort (s : State) : Host.Outcome State Fault Refusal :=
  .next (s.executeIf (fun r => r.command == some .openPort) State.performOpen)

/-- R151. -/
def State.performClose (k : Fin 2) (_ : MgmtRequest) (s : State) : State :=
  match s.mu.port with
  | .opened => (s.setPort .closed).placeReply k (doneReply [])
  | .closed => s.placeReply k (bareReply .wrongState)
  | .halted => s.placeReply k (bareReply .wrongState)

/-- CLOSE, R151. -/
def execClosePort (s : State) : Host.Outcome State Fault Refusal :=
  .next (s.executeIf (fun r => r.command == some .closePort) State.performClose)

/-! ## COMMIT and DISCARD_STAGING (Chapter 2) -/

/-- R26, Table 2-1: the first condition that an enabled entry breaks. -/
def WindowEntry.fault (e : WindowEntry) : Option TableReason :=
  match windowSize e.sizeCode with
  | none => some .badSize
  | some size =>
    if 2 ^ 32 < baseByte e.linkBase + size then some .beyondSpace
    else if baseByte e.linkBase % size ≠ 0 then some .misalignedBase
    else if baseByte e.translationBase % size ≠ 0 then some .misalignedTranslation
    else if e.laneSwap = .invalid then some .badCode
    else none

/-- R26: the fault of an entry as validation sees it; a disabled entry is passed over. -/
def WindowEntry.rejected (e : WindowEntry) : Option TableReason := if e.enabled then e.fault else none

/-- R26: the first entry in index order that validation rejects, with its reason. -/
def validate (bank : Bank) : Option (Fin 16 × TableReason) :=
  (List.finRange 16).findSome? fun i => (bank[i].rejected).map fun why => (i, why)

/-- R179: the reply word of INVALID_TABLE. -/
def invalidTableReply (i : Fin 16) (why : TableReason) : MgmtReply :=
  { status := .invalidTable, words := [place 8 why.code ||| place 0 (BitVec.ofNat 4 i.val)] }

/-- A slot whose reply is held back (Table 8-1). -/
def State.holdSlot (k : Fin 2) (r : MgmtRequest) (s : State) : State :=
  { s with mu := { s.mu with slots := s.mu.slots.set k (.held r) } }

/-- R27: the swap. -/
def State.swapBanks (s : State) : State :=
  { s with wd := { s.wd with active := s.wd.staging, generation := s.wd.generation + 1, drain := s.itemsInFlight,
                             commit := if s.itemsInFlight = 0 then .idle else .draining } }

/-- R25 to R27. -/
def State.performCommit (k : Fin 2) (r : MgmtRequest) (s : State) : State :=
  match s.wd.commit with
  | .draining => s.placeReply k (bareReply .busy)
  | .idle =>
    match validate s.wd.staging with
    | some (i, why) => s.placeReply k (invalidTableReply i why)
    | none =>
      if s.itemsInFlight = 0 then s.swapBanks.placeReply k (generationReply (s.wd.generation + 1))
      else s.swapBanks.holdSlot k r

/-- COMMIT, R25. -/
def execCommit (s : State) : Host.Outcome State Fault Refusal :=
  .next (s.executeIf (fun r => r.command == some .commit) State.performCommit)

/-- R24. -/
def State.performDiscardStaging (k : Fin 2) (_ : MgmtRequest) (s : State) : State :=
  State.placeReply k (doneReply []) { s with wd := { s.wd with staging := s.wd.active } }

/-- DISCARD_STAGING, R24. -/
def execDiscardStaging (s : State) : Host.Outcome State Fault Refusal :=
  .next (s.executeIf (fun r => r.command == some .discardStaging) State.performDiscardStaging)

/-! ## CLEAR_ERRORS (R122) -/

/-- R122: the unit after a clear that succeeds. -/
def ErrorCapture.cleared (u : ErrorCapture) : ErrorCapture :=
  { u with record := none, worst := none, nextErrors := 0, overflow := 0, discarded := 0 }

/-- R122: the stamp is in bits 15..0 of the parameter word. -/
def State.performClearErrors (k : Fin 2) (r : MgmtRequest) (s : State) : State :=
  match r.data with
  | [] => s.placeReply k (bareReply .badValue)
  | w :: _ =>
    if field w 0 16 = s.ecu.stamp then State.placeReply k (doneReply []) { s with ecu := s.ecu.cleared }
    else s.placeReply k (bareReply .stale)

/-- CLEAR_ERRORS, R122. -/
def execClearErrors (s : State) : Host.Outcome State Fault Refusal :=
  .next (s.executeIf (fun r => r.command == some .clearErrors) State.performClearErrors)

/-! ## RESET_PART (R156, R157) and unknown codes (R155) -/

/-- R156: the slot is HELD and the reset-pending flag set; with no transaction in progress it takes effect at once. -/
def State.performResetPart (k : Fin 2) (r : MgmtRequest) (s : State) : State :=
  match s.lbe.engine with
  | .idle => s.partReset
  | .requesting => State.holdSlot k r { s with mu := { s.mu with resetPending := true } }
  | .owning => State.holdSlot k r { s with mu := { s.mu with resetPending := true } }

/-- RESET_PART, R156. -/
def execResetPart (s : State) : Host.Outcome State Fault Refusal :=
  .next (s.executeIf (fun r => r.command == some .resetPart) State.performResetPart)

/-- R155. -/
def State.performUnknown (k : Fin 2) (_ : MgmtRequest) (s : State) : State := s.placeReply k (bareReply .badValue)

/-- UNKNOWN_COMMAND_CODE, R155: a MGMT_COMMAND whose code names no command. -/
def execUnknownCommandCode (s : State) : Host.Outcome State Fault Refusal :=
  .next (s.executeIf (fun r => r.kind == .mgmtCommand && r.command == none) State.performUnknown)

/-- RESET_PART_TAKES_EFFECT, R156, R157: when the reset is pending and no transaction is in progress. -/
def execResetPartTakesEffect (s : State) : Host.Outcome State Fault Refusal :=
  match s.mu.resetPending, s.lbe.engine with
  | true, .idle => .next s.partReset
  | true, .requesting => .next s
  | true, .owning => .next s
  | false, _ => .next s

end Sys2Proof.Machine
end

