-- ==== Sys2Proof/Machine/NoticePort.lean ====
section
/-! DEFINITION. Machine/NoticePort.lean: the local notice port, the part's slave function (R132 to R135). -/

namespace Sys2Proof.Machine

/-- R132: the port is enabled and the address lies in the 16-byte region from the base. -/
def ManagementUnit.portAnswers (m : ManagementUnit) (address : Word) : Bool :=
  m.portEnable && field address 4 28 == m.portBase

/-- R132: the word of the region that a beat addresses, 0 to 3. -/
def portWord (address : Word) : BitVec 2 := field address 2 2

/-- What the part drives to a beat. -/
def State.answerBeat (a : Option PortAnswer) (s : State) : State := { s with portAnswer := a }

/-- An answer that brings no data. -/
def plainAnswer (a : Answer) : Option PortAnswer := some { answer := a, readData := none }

/-- R133, case 4: the local word, with every byte that the beat does not enable zero. -/
def localWord (enables : Nibble) (lanes : Word) : Word := maskWord enables lanes

/-- R133: a write beat to word 0, the first case that applies. -/
def State.writeWordZero (enables : Nibble) (lanes : Word) (parity : Nibble) (s : State) : State :=
  match s.link.state with
  | .down => s.answerBeat (plainAnswer .error)
  | .up =>
    if enables = 0 ∨ parityError enables lanes parity = true then s.answerBeat (plainAnswer .error)
    else if Config.localPlaces ≤ s.localNotices then s.answerBeat (plainAnswer .retry)
    else State.answerBeat (plainAnswer .ack) { s with nq := s.nq ++ [.word (localWord enables lanes)] }

/-- NOTICE_PORT_WRITE, R132, R133: a beat outside the region, or while the port is disabled, is not answered; one to words
1 to 3 is answered ERROR (R134). The engine's state is not looked at (log entry 15). -/
def execNoticePortWrite (address : Word) (enables : Nibble) (lanes : Word) (parity : Nibble) (s : State) :
    Host.Outcome State Fault Refusal :=
  if s.mu.portAnswers address then
    if portWord address = 0 then .next (s.writeWordZero enables lanes parity)
    else .next (s.answerBeat (plainAnswer .error))
  else .next (s.answerBeat none)

/-- R134: the number of free LOCAL places, 0 while the link is DOWN. -/
def State.freeLocalPlaces (s : State) : Nat :=
  match s.link.state with
  | .down => 0
  | .up => Config.localPlaces - s.localNotices

/-- R134: byte 0 holds the number of free LOCAL places, and bytes 1 to 3 are zero. -/
def State.portReadWord (s : State) : Word := placeNat 0 8 s.freeLocalPlaces

/-- NOTICE_PORT_READ, R132, R134. -/
def execNoticePortRead (address : Word) (s : State) : Host.Outcome State Fault Refusal :=
  if s.mu.portAnswers address then
    if portWord address = 0 then
      .next (s.answerBeat (some { answer := .ack, readData := some (s.portReadWord, parityBits s.portReadWord) }))
    else .next (s.answerBeat (plainAnswer .error))
  else .next (s.answerBeat none)

end Sys2Proof.Machine
end

