-- ==== Sys2Proof/Machine/Dispatch.lean ====
section
/-! DEFINITION. Machine/Dispatch.lean: one arm for each command. -/

namespace Sys2Proof.Machine

def exec (i : Instr) (s : State) : Host.Outcome State Fault Refusal :=
  match i with
  | .powerOnReset => Sys2Proof.Machine.execPowerOnReset s
  | .linkUp => Sys2Proof.Machine.execLinkUp s
  | .lossOfLinkSignal => Sys2Proof.Machine.execLossOfLinkSignal s
  | .downstreamPacket words preferred => Sys2Proof.Machine.execDownstreamPacket words preferred s
  | .mgmtRead => Sys2Proof.Machine.execMgmtRead s
  | .mgmtWrite => Sys2Proof.Machine.execMgmtWrite s
  | .haltOnFatalEnable => Sys2Proof.Machine.execHaltOnFatalEnable s
  | .openPort => Sys2Proof.Machine.execOpenPort s
  | .closePort => Sys2Proof.Machine.execClosePort s
  | .commit => Sys2Proof.Machine.execCommit s
  | .discardStaging => Sys2Proof.Machine.execDiscardStaging s
  | .clearErrors => Sys2Proof.Machine.execClearErrors s
  | .resetPart => Sys2Proof.Machine.execResetPart s
  | .unknownCommandCode => Sys2Proof.Machine.execUnknownCommandCode s
  | .resetPartTakesEffect => Sys2Proof.Machine.execResetPartTakesEffect s
  | .arbitrationDecision => Sys2Proof.Machine.execArbitrationDecision s
  | .busGrant => Sys2Proof.Machine.execBusGrant s
  | .ackAnswer lanes parity => Sys2Proof.Machine.execAckAnswer lanes parity s
  | .retryAnswer => Sys2Proof.Machine.execRetryAnswer s
  | .errorAnswer => Sys2Proof.Machine.execErrorAnswer s
  | .localAccessTimerExpiry => Sys2Proof.Machine.execLocalAccessTimerExpiry s
  | .backoffIntervalExpiry item => Sys2Proof.Machine.execBackoffIntervalExpiry item s
  | .transmitChoice => Sys2Proof.Machine.execTransmitChoice s
  | .responseSent => Sys2Proof.Machine.execResponseSent s
  | .mgmtReplySent => Sys2Proof.Machine.execMgmtReplySent s
  | .noticePortWrite address enables lanes parity => Sys2Proof.Machine.execNoticePortWrite address enables lanes parity s
  | .noticePortRead address => Sys2Proof.Machine.execNoticePortRead address s
  | .upstreamTransmissionEnds => Sys2Proof.Machine.execUpstreamTransmissionEnds s

end Sys2Proof.Machine
end

