-- ==== Sys2Proof/Machine/Step.lean ====
section
/-! DEFINITION. Machine/Step.lean: a step takes the command at the front of the queue; with an empty queue the block
idles (log entry 1). -/

namespace Sys2Proof.Machine

/-- The state with its queue of commands replaced. -/
def State.withPending (s : State) (cs : List Instr) : State := { s with pending := cs }

/-- One step. -/
def step (s : State) : Host.Outcome State Fault Refusal :=
  match s.pending with
  | [] => .next s
  | c :: rest => exec c (s.withPending rest)

/-- The command that a word spells by the table's bits, put at the front of the queue; the table gives no row bits. -/
def State.withFetchWord (s : State) (nbits w : Nat) : State :=
  match decodeTableWord nbits w with
  | some c => s.withPending (c :: s.pending)
  | none => s

end Sys2Proof.Machine
end

