-- ==== Sys2Proof/Safety.lean ====
section
/-! DEFINITION. Safety.lean: the laws that the manual states of the whole part between its events, as predicates of a state:
what every block's data looks like (`Sound`), and the laws of credits, generations, records, notices, ports and tags. -/

namespace Sys2Proof.Machine

/-! ## Posted Write Queue (R37, R38, R44) -/

/-- Table 3-1: the ranges of a record's fields. -/
def WriteRecord.InRange (r : WriteRecord) : Prop :=
  1 ≤ r.length ∧ r.length ≤ 16 ∧ r.data.length = r.length ∧ r.progress < r.length ∧ r.retryCount ≤ 15

/-- R37: a record that is not the head is QUEUED with progress 0 and retry count 0. -/
def WriteRecord.Untouched (r : WriteRecord) : Prop := r.state = .queued ∧ r.progress = 0 ∧ r.retryCount = 0

/-- R37: at most 32 records, each with its fields in range, and only the head was ever on the local bus. -/
def State.QueueSound (s : State) : Prop :=
  s.pwq.length ≤ 32 ∧ (∀ r ∈ s.pwq, r.InRange) ∧ (∀ r ∈ s.pwq.tail, r.Untouched)

/-! ## Request Tracker (R57, R58, R62, R70) -/

/-- R57, R62 and Table 4-1: what holds of one entry, with `occupancy` records in the queue. -/
structure TrackerEntry.Sound (e : TrackerEntry) (occupancy : Nat) : Prop where
  orphanActive : e.orphan = true → e.state = .active
  statusComplete : e.status.isSome = true ↔ e.state = .complete
  orderedCount : e.state = .ordered ↔ e.writesAhead ≠ 0
  countBound : e.writesAhead ≤ occupancy
  placed : e.inUse = true → e.state ≠ .complete → e.placement.isSome = true
  lengthRange : e.inUse = true → 1 ≤ e.length ∧ e.length ≤ 16
  progressBound : e.inUse = true → e.progress ≤ e.length
  unfinished : e.inUse = true → e.state ≠ .complete → e.progress < e.length
  readData : e.inUse = true → e.kind = .read → e.data.length = e.progress
  writeData : e.inUse = true → e.kind = .writeConfirmed → e.data.length = e.length
  okWhole : e.status = some .ok → e.progress = e.length
  retryBound : e.inUse = true → e.retryCount ≤ 15

/-- R57, R58, R70: the entries, the allocation order and the completion list agree. -/
structure State.TrackerSound (s : State) : Prop where
  orderNodup : s.rt.order.Nodup
  orderMem : ∀ i : Fin 24, i ∈ s.rt.order ↔ s.rt.entries[i].inUse = true
  completionNodup : s.rt.completion.Nodup
  completionMem : ∀ i : Fin 24, i ∈ s.rt.completion ↔ s.rt.entries[i].state = .complete
  entries : ∀ i : Fin 24, s.rt.entries[i].Sound s.occupancy

/-! ## Local Bus Engine (R82, R83) -/

/-- The head's state is ACTIVE, or BACKOFF, as named. -/
def State.headIs (s : State) (st : RecordState) : Prop := ∃ r rest, s.pwq = r :: rest ∧ r.state = st

/-- R83, Table 5-1: one transaction at most is in progress, and the engine's fields say which. -/
structure State.EngineSound (s : State) : Prop where
  idleCurrent : s.lbe.engine = .idle ↔ s.lbe.current = none
  idleTimer : s.lbe.engine = .idle ↔ s.lbe.accessTimer = none
  owningBeat : s.lbe.engine = .owning ↔ s.lbe.beat.isSome = true
  owningCycle : s.lbe.engine = .owning ↔ s.lbe.cycle.isSome = true
  headActive : s.lbe.current = some .head ↔ s.headIs .active
  entryActive : ∀ i : Fin 24, s.lbe.current = some (.entry i) ↔ s.rt.entries[i].state = .active
  headTimer : s.lbe.headTimer.isSome = true ↔ s.headIs .backoff
  entryTimer : ∀ i : Fin 24, s.lbe.entryTimers[i].isSome = true ↔ s.rt.entries[i].state = .backoff
  streakBound : s.lbe.streak ≤ 15

/-! ## Management Unit (R139, R141, R142) -/

/-- A slot in the REPLY state. -/
def Slot.isReply : Slot → Bool
  | .reply _ _ => true
  | .free => false
  | .waiting _ => false
  | .held _ => false

/-- R139, R142: the two orders list the occupied slots and the replies, each once. -/
structure State.SlotsSound (s : State) : Prop where
  arrivalsNodup : s.mu.arrivals.Nodup
  arrivalsMem : ∀ k : Fin 2, k ∈ s.mu.arrivals ↔ s.mu.slots[k].occupied = true
  repliesNodup : s.mu.replies.Nodup
  repliesMem : ∀ k : Fin 2, k ∈ s.mu.replies ↔ s.mu.slots[k].isReply = true

/-- R147, Table 8-3: every setting lies in its range. -/
def State.SettingsInRange (s : State) : Prop :=
  s.mu.accessTimeout ≠ 0 ∧ s.mu.retryLimit ≠ 0 ∧ s.mu.retryBackoff ≠ 0 ∧ s.mu.fairness ≠ 0 ∧ s.mu.managers ≠ 0

/-! ## Link Port (R158, R159, R166, R172) -/

/-- R160, R78: while the link is DOWN nothing waits to be sent and every entry in use is an ACTIVE orphan. -/
structure State.DownQuiet (s : State) : Prop where
  noCompletion : s.rt.completion = []
  slotsFree : ∀ k : Fin 2, s.mu.slots[k] = .free
  noNotice : s.nq = []
  noTx : s.link.tx = none
  orphans : ∀ i : Fin 24, s.rt.entries[i].inUse = true → s.rt.entries[i].state = .active ∧ s.rt.entries[i].orphan = true

/-- R166: a response or reply in transmission is still at its source, at the head of its order. -/
def State.TxSound (s : State) : Prop :=
  match s.link.txSource with
  | some (.response i) => s.rt.completion.head? = some i
  | some (.reply k) => s.mu.replies.head? = some k
  | some .credit => True
  | some .notice => True
  | none => True

/-- What holds of the Link Port between events. -/
structure State.LinkSound (s : State) : Prop where
  downQuiet : s.link.state = .down → s.DownQuiet
  tx : s.TxSound
  skipBound : s.link.skip ≤ 4
  markClear : s.link.sessionStart = false

/-! ## Credits (R167) -/

/-- R167: "while the link is UP, the resources in use plus the grants outstanding at the controller plus the returns
awaiting always equal the pool's capacity. While the link is DOWN, grants outstanding and returns awaiting are both zero." -/
def State.CreditsConserved (s : State) : Prop :=
  ∀ p : Pool,
    match s.link.state with
    | .up => s.inUse p + (s.link.pool p).outstanding + (s.link.pool p).awaiting = p.capacity
    | .down => (s.link.pool p).outstanding = 0 ∧ (s.link.pool p).awaiting = 0

/-! ## Generations (R32) -/

/-- The number of items in flight whose generation is not the current one. -/
def State.olderItems (s : State) : Nat :=
  s.pwq.countP (fun r => r.generation != s.wd.generation) +
    s.rt.entries.toList.countP (fun e => e.inUse && e.generation != s.wd.generation)

/-- A generation is the current one or the one before it, modulo 256. -/
def State.RecentGeneration (s : State) (g : BitVec 8) : Prop := g = s.wd.generation ∨ g = s.wd.generation - 1

/-- R32: at most two generations are in flight; two only while DRAINING, and then the drain count is the number of items
of the older one and at least 1. -/
structure State.DrainExact (s : State) : Prop where
  queueRecent : ∀ r ∈ s.pwq, s.RecentGeneration r.generation
  trackerRecent : ∀ i : Fin 24, s.rt.entries[i].inUse = true → s.RecentGeneration s.rt.entries[i].generation
  idleNone : s.wd.commit = .idle → s.olderItems = 0 ∧ s.wd.drain = 0
  drainCounts : s.wd.commit = .draining → s.wd.drain = s.olderItems ∧ 1 ≤ s.wd.drain

/-- R29, R31: a HELD COMMIT is one whose drain is in progress, and there is at most one. -/
def State.HeldCommitDrains (s : State) : Prop :=
  (∀ k : Fin 2, s.mu.slots[k].holdsCommit = true → s.wd.commit = .draining) ∧
    ¬(s.mu.slots[0].holdsCommit = true ∧ s.mu.slots[1].holdsCommit = true)

/-! ## Windows (R2, R7) -/

/-- R26, R7: every enabled entry of the active bank meets the five conditions of Table 2-1. -/
def State.ActiveBankValid (s : State) : Prop := ∀ i : Fin 16, s.wd.active[i].rejected = none

/-! ## Error Capture Unit (R114, R117, R118) -/

/-- R114, R118: the record and the worst severity agree; R117: the Next Error Set is empty exactly when the overflow count
is zero, and while the record is EMPTY both are. -/
structure State.RecordsSound (s : State) : Prop where
  worstIsRecord : s.ecu.worst = s.ecu.record.map ErrorRecord.severity
  setCount : s.ecu.nextErrors = 0 ↔ s.ecu.overflow = 0
  emptyNone : s.ecu.record = none → s.ecu.nextErrors = 0

/-! ## Notice Queue (R126) -/

/-- R126: "The Notice Queue never holds more than 5 LOCAL notices, nor more than one ERROR notice of each severity." -/
def State.NoticesBounded (s : State) : Prop :=
  s.localNotices ≤ 5 ∧ ∀ v : Severity, s.nq.countP (Notice.hasSeverity v) ≤ 1

/-! ## The port state (R149, R51, R76) -/

/-- R149: the port is HALTED whenever the worst severity held by the Error Capture Unit is FATAL and halt-on-fatal is
enabled. The manual's law is that it is then not OPEN; it is not CLOSED either, since no rule of 8.5 leads there, and only
this stronger law survives an OPEN from CLOSED (DEDUCED, log entry 23). -/
def State.PortGuarded (s : State) : Prop :=
  s.ecu.worst = some .fatal → s.mu.haltOnFatal = true → s.mu.port = .halted

/-- R51, R76: while the port is HALTED, only an ACTIVE head is left in the queue and no entry waits. -/
def State.HaltedQuiet (s : State) : Prop :=
  s.mu.port = .halted →
    s.occupancy ≤ 1 ∧ (∀ r ∈ s.pwq, r.state = .active) ∧ ∀ i : Fin 24, s.rt.entries[i].waits = false

/-! ## Tags (R59) -/

/-- R59: "No two Request Tracker entries that are neither FREE nor orphan hold the same tag." -/
def State.TagsDistinct (s : State) : Prop :=
  ∀ i j : Fin 24, i ≠ j → s.rt.entries[i].inUse = true → s.rt.entries[j].inUse = true →
    s.rt.entries[i].orphan = false → s.rt.entries[j].orphan = false → s.rt.entries[i].tag ≠ s.rt.entries[j].tag

/-! ## Words of the statements

What the statements of Certificates/ say in the manual's terms, beside the meanings themselves. -/

/-- R162, R178: the words received are a header of two words, the data words and a check word whose bits 15..0 hold the
check over header and data. -/
def PacketReceived (words : List Word) (h : Header) (data : List Word) : Prop :=
  ∃ w0 w1 check : Word, words = w0 :: w1 :: (data ++ [check]) ∧ check.extractLsb' 0 16 = crc (w0 :: w1 :: data) ∧
    h = Header.read w0 w1

/-- R141: slot `k` holds the request `r`, the oldest that waits, and no RESET_PART is pending. -/
def State.Executes (s : State) (k : Fin 2) (r : MgmtRequest) : Prop :=
  s.mu.resetPending = false ∧ s.mu.slots[k] = .waiting r ∧
    ∃ older newer : List (Fin 2), s.mu.arrivals = older ++ k :: newer ∧ ∀ j ∈ older, s.mu.slots[j].waitingRequest = none

/-- Table 8-7: slot `k` executes a MGMT_COMMAND of a manager class with the code given. -/
def State.ExecutesCommand (s : State) (k : Fin 2) (r : MgmtRequest) (code : WordAddress) : Prop :=
  s.Executes k r ∧ r.kind = .mgmtCommand ∧ r.address = code ∧ r.manager = true

/-- R141, R142: slot `k` is REPLY, and its reply is the last to have become ready. -/
def State.replied (s : State) (k : Fin 2) (r : MgmtRequest) (m : MgmtReply) : State :=
  { s with mu := { s.mu with slots := s.mu.slots.set k (.reply r m), replies := s.mu.replies ++ [k] } }

/-- The command that executes a request, but for a MGMT_WRITE that enables halt-on-fatal (log entry 4). -/
def MgmtRequest.instr (r : MgmtRequest) : Instr :=
  match r.kind with
  | .mgmtRead => .mgmtRead
  | .mgmtWrite => .mgmtWrite
  | .mgmtCommand =>
    match CommandCode.ofAddress r.address with
    | some .openPort => .openPort
    | some .closePort => .closePort
    | some .commit => .commit
    | some .discardStaging => .discardStaging
    | some .clearErrors => .clearErrors
    | some .resetPart => .resetPart
    | none => .unknownCommandCode

/-- R146: the status of the first check that a word for an index fails. -/
def writeFault (index : Nat) (w : Word) : Option MgmtStatus :=
  match objectAt index with
  | none => some .badObject
  | some o => if o.writable = false then some .readOnly else if o.inRange w = false then some .badValue else none

/-- Table 11-8, Table 11-9: the bits of a read-write object that belong to a field. -/
def ObjectId.fieldMask : ObjectId → Word
  | .busTiming => 0x000F0FFF#32
  | .policy => 0x000F1FFF#32
  | .noticePort => 0xFFFFFFF1#32
  | .recordMask => 0x00001FFF#32
  | .severityMap => 0x03FFFFFF#32
  | .notifyEnables => 0x00000007#32
  | .staging _ n => if n = 0 then 0x000F77F1#32 else if n = 3 then 0x000000FF#32 else 0xFFFFF000#32
  | .identity => 0
  | .portStatus => 0
  | .occupancy => 0
  | .recordStatus => 0
  | .capture _ => 0
  | .nextErrors => 0
  | .errorCounts => 0
  | .active _ _ => 0

/-- Tables 11-8 to 11-10: the map holds an object at the index, and a read of it returns `b` from bit `lo` upward. -/
def State.Shows (s : State) (index lo : Nat) {n : Nat} (b : BitVec n) : Prop :=
  ∃ o : ObjectId, objectAt index = some o ∧ (s.readObject o).extractLsb' lo n = b

/-- R89, R90, R91, R99: the enables of the word at `position` of an item, after the lane swap, and for a write its data and
the parity bits of the enabled lanes (on the others the model drives nothing, log entry 11). -/
def Cycle.DrivesBeat (c : Cycle) (it : Item) (position : Nat) : Prop :=
  let data := swapWord it.placement.laneSwap (it.data.getD position 0)
  c.enables = swapEnables it.placement.laneSwap
    (if position = 0 then it.firstMask else if position + 1 = it.length then it.lastMask else 15) ∧
  (it.direction = .read → c.writeData = none ∧ ∀ l : Fin 4, c.parity[l] = none) ∧
  (it.direction = .write → c.writeData = some data ∧
    ∀ l : Fin 4, c.parity[l] = if c.enables.getLsbD l.val then some (laneParity data l.val) else none)

/-- R89, R92: the address phase of a cycle that begins at `position` of an item. The cycle is a burst of the words that
remain, when burst is allowed and two or more remain, and else of one beat. -/
def Cycle.BeginsAt (c : Cycle) (it : Item) (position : Nat) : Prop :=
  c.address = it.placement.localAddress + BitVec.ofNat 30 position ∧ c.direction = it.direction ∧
  c.attr = it.placement.attr ∧
  c.beats = if it.placement.burstAllowed = true ∧ 2 ≤ it.length - position then it.length - position else 1

/-- R83, R100: no transaction is in progress and no item is current; streak, backoff timers and parity marks stay. -/
def LocalBusEngine.released (b : LocalBusEngine) : LocalBusEngine :=
  { b with engine := .idle, current := none, accessTimer := none, beat := none, cycle := none }

/-- R93, R95, R97: a beat of the current item awaits its answer. -/
def State.BeatOf (s : State) (c : CurrentItem) : Prop :=
  s.lbe.engine = .owning ∧ s.lbe.beat.isSome = true ∧ s.lbe.current = some c

/-- R95, R97, R98: the command ends the transaction of the current item, whose retry count is given, with the failure
named. -/
def State.FailsWith (s : State) (c : Instr) (item : CurrentItem) (retryCount : Nat) (f : Failure) : Prop :=
  (c = .errorAnswer ∧ f = .targetError ∧ s.BeatOf item) ∨
  (c = .localAccessTimerExpiry ∧ f = .timeout ∧ s.lbe.accessTimer.isSome = true ∧ s.lbe.current = some item) ∨
  (c = .retryAnswer ∧ f = .retryLimit ∧ s.BeatOf item ∧ s.mu.retryLimit.toNat < retryCount + 1)

/-- R41, R84: the head of the queue is offered. -/
def State.HeadOffered (s : State) : Prop := s.mu.resetPending = false ∧ s.headIs .queued

/-- R64: `i` is the READY entry that is oldest in allocation order, and it is offered. -/
def State.ReadyOffered (s : State) (i : Fin 24) : Prop :=
  s.mu.resetPending = false ∧ s.rt.entries[i].state = .ready ∧
    ∃ older newer : List (Fin 24), s.rt.order = older ++ i :: newer ∧ ∀ j ∈ older, s.rt.entries[j].state ≠ .ready

/-- R172: the skip count after a choice that sends no notice. -/
def State.skipAfter (s : State) : Nat :=
  if s.nq = [] then s.link.skip else if s.link.skip < 4 then s.link.skip + 1 else s.link.skip

/-! ## The whole -/

/-- What the data of the blocks looks like between two events, and the law of the credits: the invariant that rules out
the states that no run reaches. -/
structure State.Sound (s : State) : Prop where
  queue : s.QueueSound
  tracker : s.TrackerSound
  engine : s.EngineSound
  slots : s.SlotsSound
  link : s.LinkSound
  credits : s.CreditsConserved

end Sys2Proof.Machine
end

