-- ==== Sys2Proof/Certificates/Slice0/Obligations.lean ====
section
/-! DEFINITION. Certificates/Slice0/Obligations.lean: the statements for the provers. A statement of a command's effect
gives the whole next state, so that its frame is part of it. -/

open Sys2Proof Sys2Proof.Machine

/-! ## The machine as a whole -/

/-- A step runs the command at the front of the queue on the state with the rest of the queue; with an empty queue it
changes nothing (the model's choice, log entry 1). -/
def Obligations.StepTakesFrontCommand : Prop :=
  (∀ (c : Instr) (rest : List Instr) (s : State),
    step (s.withPending (c :: rest)) = exec c (s.withPending rest)) ∧
  (∀ (cs : List Instr) (s : State), s.withPending cs = { s with pending := cs }) ∧
  ∀ s : State, s.pending = [] → step s = .next s

/-- In a sound state every command answers a next state (R39, R61, R140: a place is always free). In any state only
DOWNSTREAM_PACKET can stop, with a fault of the model (log entry 13), and no command is refused. -/
def Obligations.SoundStatesNeverStop : Prop :=
  (∀ (c : Instr) (s : State), s.Sound → ∃ t, exec c s = .next t ∧ t.pending = s.pending) ∧
  ∀ (c : Instr) (s : State), (∃ t, exec c s = .next t) ∨
    ((∃ words p, c = .downstreamPacket words p) ∧ ∃ f, exec c s = .fault f)

/-- The data of the blocks keeps its form, and the credits keep their sum, at every step. -/
def Obligations.StepKeepsSound : Prop :=
  ∀ s t : State, s.Sound → step s = .next t → t.Sound

/-- Every invariant stated here holds right after reset: the values of 01 R8, 02 R22, 03 R37, 04 R56 and R58, Table 5-1,
Table 6-3, 07 R126, 08 R139, R147 and R149, 09 R158 and R167. That the session-start mark is clear, which Sound says too, is
the model's choice (log entry 16). -/
def Obligations.InvariantsHoldAtReset : Prop :=
  State.reset.Sound ∧ State.reset.SettingsInRange ∧ State.reset.DrainExact ∧ State.reset.HeldCommitDrains ∧
    State.reset.ActiveBankValid ∧ State.reset.RecordsSound ∧ State.reset.NoticesBounded ∧ State.reset.PortGuarded ∧
    State.reset.HaltedQuiet ∧ State.reset.TagsDistinct

/-- R32: the drain count is the number of items of the older generation. -/
def Obligations.DrainStaysExact : Prop :=
  ∀ s t : State, s.Sound → s.DrainExact → step s = .next t → t.DrainExact

/-- R29, R31: a HELD COMMIT is one whose drain is in progress. -/
def Obligations.HeldCommitStaysDraining : Prop :=
  ∀ s t : State, s.HeldCommitDrains → step s = .next t → t.HeldCommitDrains

/-- R7, R26: decode only ever reads entries that validation accepts; R146, R147: no write takes a setting out of its
range. -/
def Obligations.BankAndSettingsStayValid : Prop :=
  (∀ s t : State, s.ActiveBankValid → step s = .next t → t.ActiveBankValid) ∧
  ∀ s t : State, s.SettingsInRange → step s = .next t → t.SettingsInRange

/-- R114, R117, R118: the record, the worst severity, the Next Error Set and the overflow count agree. R126: five LOCAL
notices at most, and one ERROR notice of each severity at most. -/
def Obligations.RecordsAndNoticesStaySound : Prop :=
  (∀ s t : State, s.RecordsSound → step s = .next t → t.RecordsSound) ∧
  ∀ s t : State, s.NoticesBounded → step s = .next t → t.NoticesBounded

/-- R149: with FATAL held and halt-on-fatal enabled the port is not OPEN. That it is HALTED, and so not CLOSED either, is the
model's inference (DEDUCED, log entry 23). -/
def Obligations.PortStaysGuarded : Prop :=
  ∀ s t : State, s.PortGuarded → step s = .next t →
    t.PortGuarded ∧ ¬(t.mu.port = .opened ∧ t.ecu.worst = some .fatal ∧ t.mu.haltOnFatal = true)

/-- R51, R76: while HALTED the queue holds at most an ACTIVE head, and no entry waits. -/
def Obligations.HaltedStaysQuiet : Prop :=
  ∀ s t : State, s.Sound → s.HaltedQuiet → step s = .next t → t.HaltedQuiet

/-- R59: no two entries that are neither FREE nor orphan hold the same tag. -/
def Obligations.TagsStayDistinct : Prop :=
  ∀ s t : State, s.Sound → s.TagsDistinct → step s = .next t → t.TagsDistinct

/-- A command whose condition does not hold changes nothing (the model's choice, log entry 3): an answer with no beat in
progress (R94), the expiry of a timer that is stopped, a grant that is not waited for, a decision with a transaction in
progress (R84), a choice with the link DOWN or busy (R171), the end of a packet that is not in transmission, and the
execution of a request that does not wait or is another one's (R141; for HALT_ON_FATAL_ENABLE log entry 4). -/
def Obligations.UnmetConditionsChangeNothing : Prop :=
  (∀ (q : Slot) (r : MgmtRequest), q.waitingRequest = some r ↔ q = .waiting r) ∧
  ∀ s : State,
    (s.lbe.engine ≠ .owning ∨ s.lbe.beat = none → exec .retryAnswer s = .next s ∧ exec .errorAnswer s = .next s ∧
      ∀ (lanes : Word) (parity : Nibble), exec (.ackAnswer lanes parity) s = .next s) ∧
    (s.lbe.accessTimer = none → exec .localAccessTimerExpiry s = .next s) ∧
    (s.lbe.headTimer = none → exec (.backoffIntervalExpiry .head) s = .next s) ∧
    (∀ i : Fin 24, s.lbe.entryTimers[i] = none → exec (.backoffIntervalExpiry (.entry i)) s = .next s) ∧
    (s.lbe.engine ≠ .requesting → exec .busGrant s = .next s) ∧
    (s.lbe.engine ≠ .idle → exec .arbitrationDecision s = .next s) ∧
    (s.link.state = .down ∨ s.link.tx ≠ none → exec .transmitChoice s = .next s) ∧
    ((∀ i : Fin 24, s.link.txSource ≠ some (.response i)) → exec .responseSent s = .next s) ∧
    ((∀ k : Fin 2, s.link.txSource ≠ some (.reply k)) → exec .mgmtReplySent s = .next s) ∧
    (s.link.txSource ≠ some .credit → s.link.txSource ≠ some .notice → exec .upstreamTransmissionEnds s = .next s) ∧
    ∀ c : Instr, c ∈ [.mgmtRead, .mgmtWrite, .haltOnFatalEnable, .openPort, .closePort, .commit, .discardStaging,
        .clearErrors, .resetPart, .unknownCommandCode] →
      (s.mu.resetPending = true ∨ (∀ k ∈ s.mu.arrivals, s.mu.slots[k].waitingRequest = none) → exec c s = .next s) ∧
      ∀ (k : Fin 2) (r : MgmtRequest), s.Executes k r →
        (c ≠ .haltOnFatalEnable ∧ c ≠ r.instr ∨
          c = .haltOnFatalEnable ∧ (r.kind ≠ .mgmtWrite ∨ r.manager = false ∨ s.mu.haltOnFatal = true)) →
        exec c s = .next s

/-! ## Resets and sessions -/

/-- POWER_ON_RESET: the values of 09 R158, 01 R8, 02 R22, 03 R37, 04 R56 and R58, Table 5-1, Table 6-3, 07 R126 and R131,
08 R139, R147 and R149. That the session-start mark is clear and the notice port drives nothing are the model's choices
(log entries 16 and 10), and the queue of commands is the model's (log entry 1). The state is State.reset but for that queue;
the fields of a FREE entry that R56 does not name are the model's choice there (log entry 7). Table 1-3 and Table 6-1: the
reset values of a window entry and of the severity map. -/
def Obligations.PowerOnReset : Prop :=
  WindowEntry.reset = { enabled := false, sizeCode := 0, linkBase := 0, translationBase := 0, rights := 0
                        postingAllowed := false, order := .strict, laneSwap := .noSwap, burstAllowed := false
                        attr := 0 } ∧
  defaultSeverities.toList = [.correctable, .nonfatal, .fatal, .nonfatal, .nonfatal, .nonfatal, .nonfatal, .correctable,
    .nonfatal, .nonfatal, .fatal, .nonfatal, .nonfatal] ∧
  ∀ s : State, ∃ t, exec .powerOnReset s = .next t ∧ t.pending = s.pending ∧
    t = { State.reset with pending := s.pending } ∧
    t.link = { state := .down, posted := ⟨0, 0⟩, nonPosted := ⟨0, 0⟩, management := ⟨0, 0⟩, sessionStart := false,
               skip := 0, seq := 0, tx := none } ∧
    (∀ i : Fin 16, t.wd.staging[i] = WindowEntry.reset ∧ t.wd.active[i] = WindowEntry.reset) ∧
    t.wd.generation = 0 ∧ t.wd.commit = .idle ∧ t.wd.drain = 0 ∧ t.pwq = [] ∧
    (∀ i : Fin 24, t.rt.entries[i].state = .free ∧ t.rt.entries[i].writesAhead = 0 ∧
      t.rt.entries[i].orphan = false) ∧
    t.rt.counter = 0 ∧ t.rt.order = [] ∧ t.rt.completion = [] ∧
    t.lbe.engine = .idle ∧ t.lbe.current = none ∧ t.lbe.streak = 0 ∧ t.lbe.accessTimer = none ∧ t.lbe.beat = none ∧
    t.lbe.headTimer = none ∧ t.lbe.cycle = none ∧
    (∀ i : Fin 24, t.lbe.entryTimers[i] = none ∧ t.lbe.parityMarks[i] = false) ∧
    t.ecu.mask = 0 ∧ t.ecu.severityMap = defaultSeverities ∧ t.ecu.notify = 6 ∧ t.ecu.record = none ∧
    t.ecu.worst = none ∧ t.ecu.stamp = 0 ∧ t.ecu.nextErrors = 0 ∧ t.ecu.overflow = 0 ∧ t.ecu.discarded = 0 ∧
    t.nq = [] ∧ (∀ k : Fin 2, t.mu.slots[k] = .free) ∧ t.mu.arrivals = [] ∧ t.mu.replies = [] ∧
    t.mu.resetPending = false ∧ t.mu.accessTimeout = 64 ∧ t.mu.retryLimit = 8 ∧ t.mu.retryBackoff = 4 ∧
    t.mu.fairness = 4 ∧ t.mu.haltOnFatal = true ∧ t.mu.managers = 1 ∧ t.mu.portEnable = false ∧ t.mu.portBase = 0 ∧
    t.mu.port = .closed ∧ t.portAnswer = none

/-- Table 11-8, last column: what each object reads as right after power-on reset, where the table gives a value. -/
def Obligations.ObjectsAtReset : Prop :=
  State.reset.readObject .identity = 0x22405A01#32 ∧ State.reset.readObject .busTiming = 0x00080040#32 ∧
    State.reset.readObject .policy = 0x00011404#32 ∧ State.reset.readObject .noticePort = 0 ∧
    State.reset.readObject .recordMask = 0 ∧ State.reset.readObject .severityMap = 0x01651564#32 ∧
    State.reset.readObject .notifyEnables = 6 ∧ State.reset.readObject .recordStatus = 0 ∧
    (∀ n : Fin 6, State.reset.readObject (.capture n) = 0) ∧ State.reset.readObject .nextErrors = 0 ∧
    State.reset.readObject .errorCounts = 0 ∧
    ∀ (i : Fin 16) (n : Fin 4), State.reset.readObject (.staging i n) = 0 ∧ State.reset.readObject (.active i n) = 0

/-- LINK_UP, R160 and R170: while the link is DOWN, the session begins and its CREDIT packet carries each pool's free
count, which is added to the grants outstanding; while it is UP nothing happens (R158). Table 9-6: each pool's capacity and
what its resources in use are. -/
def Obligations.LinkUpGrantsFreeCounts : Prop :=
  [Pool.posted, .nonPosted, .management].map Pool.capacity = [32, 24, 2] ∧
  ∀ s : State,
    s.inUse .posted = s.pwq.length ∧ s.inUse .nonPosted = s.inUseCount ∧ s.inUse .management = s.occupiedSlots ∧
    s.inUseCount = ((List.finRange 24).filter fun i => s.rt.entries[i].state != .free).length ∧
    s.occupiedSlots = ((List.finRange 2).filter fun k => s.mu.slots[k] != .free).length ∧
    (s.link.state = .down → exec .linkUp s = .next { s with link :=
      { state := .up, seq := 0, skip := 0, sessionStart := false
        posted := ⟨s.link.posted.outstanding + (32 - s.pwq.length), 0⟩
        nonPosted := ⟨s.link.nonPosted.outstanding + (24 - s.inUseCount), 0⟩
        management := ⟨s.link.management.outstanding + (2 - s.occupiedSlots), 0⟩
        tx := some ⟨.credit, creditPacket (32 - s.pwq.length) (24 - s.inUseCount) (2 - s.occupiedSlots) true⟩ } }) ∧
    (s.link.state = .up → exec .linkUp s = .next s)

/-- LOSS_OF_LINK_SIGNAL, R158, R159 and Table 9-1: what the session end does to every block while the link is UP, and
nothing while it is DOWN. The entries of the older generation that it frees are counted out of a drain, and no reply is
placed when they end it (R33). -/
def Obligations.LossOfSignalEndsSession : Prop :=
  ∀ s : State,
    (s.link.state = .down → exec .lossOfLinkSignal s = .next s) ∧
    (s.link.state = .up → s.TrackerSound → ∃ t, exec .lossOfLinkSignal s = .next t ∧
      t.link = { s.link with state := .down, posted := ⟨0, 0⟩, nonPosted := ⟨0, 0⟩, management := ⟨0, 0⟩,
                             sessionStart := false, skip := 0, tx := none } ∧
      t.wd.staging = s.wd.staging ∧ t.wd.active = s.wd.active ∧ t.wd.generation = s.wd.generation ∧
      (s.wd.commit = .idle → t.wd = s.wd) ∧
      (s.wd.commit = .draining →
        let older := (s.rt.order.filter fun i =>
          s.rt.entries[i].state != .active && s.rt.entries[i].generation != s.wd.generation).length
        (older < s.wd.drain → t.wd = { s.wd with drain := s.wd.drain - older }) ∧
        (1 ≤ s.wd.drain → older = s.wd.drain → t.wd = { s.wd with drain := 0, commit := .idle })) ∧
      t.pwq = s.pwq ∧ t.ecu = s.ecu ∧ t.nq = [] ∧ t.portAnswer = s.portAnswer ∧ t.pending = s.pending ∧
      t.mu = { s.mu with slots := Vector.replicate 2 .free, arrivals := [], replies := []
                         port := if s.mu.port = .opened then .closed else s.mu.port } ∧
      t.rt.counter = s.rt.counter ∧ t.rt.completion = [] ∧
      t.rt.order = s.rt.order.filter (fun i => s.rt.entries[i].state == .active) ∧
      (∀ i : Fin 24, s.rt.entries[i].state = .active → t.rt.entries[i] = { s.rt.entries[i] with orphan := true }) ∧
      (∀ i : Fin 24, s.rt.entries[i].state ≠ .active → t.rt.entries[i].state = .free ∧
        t.rt.entries[i].writesAhead = 0 ∧ t.rt.entries[i].orphan = false) ∧
      t.lbe.entryTimers = Vector.ofFn (fun i : Fin 24 =>
        if s.rt.entries[i].state = .backoff then none else s.lbe.entryTimers[i]) ∧
      t.lbe = { s.lbe with entryTimers := t.lbe.entryTimers })

/-! ## Received packets -/

/-- R162, R158, R159: a packet that fails its integrity check is reported as LINK_CHECK and then ends the session as
LOSS_OF_LINK_SIGNAL does; report and session end stand in one step by the model's choice (log entry 24). While the link
is DOWN no packet is received, and the command does nothing (DEDUCED, log entry 21). -/
def Obligations.DamagedPacketEndsSession : Prop :=
  ∀ (words : List Word) (p : Fin 24) (s : State),
    (s.link.state = .down → exec (.downstreamPacket words p) s = .next s) ∧
    (s.link.state = .up → (¬∃ h data, PacketReceived words h data) →
      ∃ t, exec (.downstreamPacket words p) s = .next t ∧
        t = (s.report { kind := .linkCheck, source := .fromLink, packet := none, tag := none, generation := none
                        window := none, firstData := none }).endSession ∧
        exec .lossOfLinkSignal (s.report
          { kind := .linkCheck, source := .fromLink, packet := none, tag := none, generation := none
            window := none, firstData := none }) = .next t ∧
        t.link.state = .down ∧ t.nq = [] ∧ t.rt.completion = [] ∧ t.mu.arrivals = [] ∧
        (∀ q : Pool, t.link.pool q = ⟨0, 0⟩) ∧ t.mu.port ≠ .opened)

/-- R163 steps 2 to 4, R107, R168: what each discarded packet does to its pool, and the report it leads to. R164, Tables
9-3, 9-4 and 11-2: which kind code is of a downstream kind, which pool a kind is charged to and which packets are
well-formed. -/
def Obligations.DiscardedPacketsAreReported : Prop :=
  (∀ (words : List Word) (p : Fin 24) (s : State) (h : Header) (data : List Word), s.link.state = .up →
    PacketReceived words h data →
    let report (k : ErrorKind) : Report :=
      { kind := k, source := .fromLink, packet := some ⟨h.kindCode, h.cls, h.address, h.length⟩
        tag := if h.kindCode = 1 then none else some h.tag
        generation := none, window := none, firstData := data.head? }
    (DownstreamKind.ofCode h.kindCode = none →
      exec (.downstreamPacket words p) s = .next (s.report (report .malformed))) ∧
    (∀ k : DownstreamKind, DownstreamKind.ofCode h.kindCode = some k →
      ((s.link.pool k.pool).outstanding = 0 →
        exec (.downstreamPacket words p) s = .next (s.report (report .creditOverrun))) ∧
      ((s.link.pool k.pool).outstanding ≠ 0 → formWellFormed k h data = false →
        exec (.downstreamPacket words p) s = .next (State.report (report .malformed) { s with
          link := s.link.setPool k.pool
            ⟨(s.link.pool k.pool).outstanding - 1, (s.link.pool k.pool).awaiting + 1⟩ })))) ∧
  ([1, 2, 3, 4, 5, 6].map DownstreamKind.ofCode =
    [some (.data .writePosted), some (.data .writeConfirmed), some (.data .read), some (.mgmt .mgmtRead),
      some (.mgmt .mgmtWrite), some (.mgmt .mgmtCommand)]) ∧
  (∀ c : BitVec 4, DownstreamKind.ofCode c = none ↔ c = 0 ∨ 7 ≤ c.toNat) ∧
  (∀ l : LinkPort, l.pool .posted = l.posted ∧ l.pool .nonPosted = l.nonPosted ∧ l.pool .management = l.management ∧
    ∀ c : CreditPool, l.setPool .posted c = { l with posted := c } ∧
      l.setPool .nonPosted c = { l with nonPosted := c } ∧ l.setPool .management c = { l with management := c }) ∧
  DownstreamKind.pool (.data .writePosted) = .posted ∧ DownstreamKind.pool (.data .writeConfirmed) = .nonPosted ∧
  DownstreamKind.pool (.data .read) = .nonPosted ∧ (∀ m : MgmtKind, DownstreamKind.pool (.mgmt m) = .management) ∧
  (∀ (k : DataKind) (h : Header) (data : List Word), formWellFormed (.data k) h data = true ↔
    1 ≤ h.length.toNat ∧ h.length.toNat ≤ 16 ∧ data.length = (if k = .read then 0 else h.length.toNat) ∧
    h.firstMask ≠ 0 ∧ (h.length.toNat = 1 → h.lastMask = 0) ∧ (1 < h.length.toNat → h.lastMask ≠ 0)) ∧
  ∀ (m : MgmtKind) (h : Header) (data : List Word), formWellFormed (.mgmt m) h data = true ↔
    1 ≤ h.length.toNat ∧ h.length.toNat ≤ 8 ∧ (m = .mgmtRead → data.length = 0) ∧
    (m = .mgmtWrite → data.length = h.length.toNat) ∧ (m = .mgmtCommand → data.length ≤ 1)

/-- R39, R38, R163: an accepted WRITE_POSTED is appended at the tail. -/
def Obligations.PostedWriteAppended : Prop :=
  ∀ (words : List Word) (p : Fin 24) (s : State) (h : Header) (data : List Word) (pl : Placement) (o : WindowOrder),
    s.link.state = .up → PacketReceived words h data → h.kindCode = 1 → s.link.posted.outstanding ≠ 0 →
    formWellFormed (.data .writePosted) h data = true →
    decode s.mu.port s.wd.active (h.dataRequest .writePosted data) = .accepted pl o → s.pwq.length < 32 →
    exec (.downstreamPacket words p) s = .next { s with
      link := { s.link with posted := ⟨s.link.posted.outstanding - 1, s.link.posted.awaiting⟩ }
      pwq := s.pwq ++ [{ cls := h.cls, linkAddress := h.address, length := h.length.toNat, firstMask := h.firstMask,
                         lastMask := h.lastMask, data := data, placement := pl, generation := s.wd.generation,
                         progress := 0, retryCount := 0, state := .queued }] }

/-- R10, R19, R21: a WRITE_POSTED refused at decode is discarded, its credit is released, and it is counted (HALTED) or
reported. -/
def Obligations.PostedWriteDiscarded : Prop :=
  ∀ (words : List Word) (p : Fin 24) (s : State) (h : Header) (data : List Word) (o : DecodeOutcome),
    s.link.state = .up → PacketReceived words h data → h.kindCode = 1 → s.link.posted.outstanding ≠ 0 →
    formWellFormed (.data .writePosted) h data = true →
    decode s.mu.port s.wd.active (h.dataRequest .writePosted data) = o →
    let released : State := { s with link := { s.link with
      posted := ⟨s.link.posted.outstanding - 1, s.link.posted.awaiting + 1⟩ } }
    let report (k : ErrorKind) (w : Option WindowCapture) : Report :=
      { kind := k, source := .fromDecode, packet := some ⟨1, h.cls, h.address, h.length⟩, tag := none
        generation := some s.wd.generation, window := w, firstData := data.head? }
    (o = .halted → exec (.downstreamPacket words p) s =
      .next { released with ecu := { s.ecu with discarded := satIncr s.ecu.discarded } }) ∧
    (o = .closed → exec (.downstreamPacket words p) s = .next (released.report (report .closedWrite none))) ∧
    (o = .unmatched → exec (.downstreamPacket words p) s = .next (released.report (report .unmapped none))) ∧
    (∀ pl : Placement, o = .notContained pl → exec (.downstreamPacket words p) s =
      .next (released.report (report .unmapped (some ⟨pl.index, pl.localAddress, 0⟩)))) ∧
    (∀ pl : Placement, o = .denied pl → exec (.downstreamPacket words p) s =
      .next (released.report (report .accessDenied (some ⟨pl.index, pl.localAddress, 0⟩)))) ∧
    (∀ pl : Placement, o = .postingRefused pl → exec (.downstreamPacket words p) s =
      .next (released.report (report .postingRefused (some ⟨pl.index, pl.localAddress, 0⟩))))

/-- R58, R61, R62, R40: an accepted READ or WRITE_CONFIRMED is given a FREE entry, as the newest in allocation order. Which
FREE entry is not said by the manual; the model takes the one named by the command if it is FREE (log entry 6). -/
def Obligations.NonPostedAllocated : Prop :=
  ∀ (words : List Word) (p : Fin 24) (s : State) (h : Header) (data : List Word) (k : DataKind) (pl : Placement)
    (o : WindowOrder), s.link.state = .up → PacketReceived words h data →
    DownstreamKind.ofCode h.kindCode = some (.data k) → k ≠ .writePosted → s.link.nonPosted.outstanding ≠ 0 →
    formWellFormed (.data k) h data = true → s.tagInUse h.tag = false → (∃ i : Fin 24, s.rt.entries[i].state = .free) →
    decode s.mu.port s.wd.active (h.dataRequest k data) = .accepted pl o →
    ∃ i : Fin 24, s.rt.entries[i].state = .free ∧ (s.rt.entries[p].state = .free → i = p) ∧
      exec (.downstreamPacket words p) s = .next { s with
        link := { s.link with nonPosted := ⟨s.link.nonPosted.outstanding - 1, s.link.nonPosted.awaiting⟩ }
        rt := { s.rt with
          counter := s.rt.counter + 1, order := s.rt.order ++ [i]
          entries := s.rt.entries.set i
            { state := if o = .strict ∧ s.pwq.length ≠ 0 then .ordered else .ready
              tag := h.tag, cls := h.cls, kind := if k = .read then .read else .writeConfirmed
              linkAddress := h.address, length := h.length.toNat, firstMask := h.firstMask, lastMask := h.lastMask
              data := data, placement := some pl, order := some o, generation := s.wd.generation
              arrival := s.rt.counter, writesAhead := if o = .strict then s.pwq.length else 0, progress := 0
              retryCount := 0, status := none, orphan := false } } }

/-- R10, R20, R61: a READ or WRITE_CONFIRMED refused at decode is given an entry that is COMPLETE with the refusal status,
last on the completion list, and the refusal's error kind, if it has one, is reported after that. Which FREE entry is not
said by the manual; that it is the one named by the command if that is FREE is the model's choice (log entry 6). -/
def Obligations.NonPostedRefused : Prop :=
  ∀ (words : List Word) (p : Fin 24) (s : State) (h : Header) (data : List Word) (k : DataKind) (o : DecodeOutcome),
    s.link.state = .up → PacketReceived words h data → DownstreamKind.ofCode h.kindCode = some (.data k) →
    k ≠ .writePosted → s.link.nonPosted.outstanding ≠ 0 → formWellFormed (.data k) h data = true →
    s.tagInUse h.tag = false → (∃ i : Fin 24, s.rt.entries[i].state = .free) →
    decode s.mu.port s.wd.active (h.dataRequest k data) = o →
    ∃ i : Fin 24, s.rt.entries[i].state = .free ∧ (s.rt.entries[p].state = .free → i = p) ∧
      let given (st : Status) : State := { s with
        link := { s.link with nonPosted := ⟨s.link.nonPosted.outstanding - 1, s.link.nonPosted.awaiting⟩ }
        rt := {
          counter := s.rt.counter + 1, order := s.rt.order ++ [i], completion := s.rt.completion ++ [i]
          entries := s.rt.entries.set i
            { state := .complete, tag := h.tag, cls := h.cls, kind := if k = .read then .read else .writeConfirmed
              linkAddress := h.address, length := h.length.toNat, firstMask := h.firstMask, lastMask := h.lastMask
              data := data, placement := none, order := none, generation := s.wd.generation, arrival := s.rt.counter
              writesAhead := 0, progress := 0, retryCount := 0, status := some st, orphan := false } } }
      let report (e : ErrorKind) (w : Option WindowCapture) : Report :=
        { kind := e, source := .fromDecode, packet := some ⟨h.kindCode, h.cls, h.address, h.length⟩, tag := some h.tag
          generation := some s.wd.generation, window := w, firstData := data.head? }
      (o = .closed → exec (.downstreamPacket words p) s = .next (given .refusedClosed)) ∧
      (o = .halted → exec (.downstreamPacket words p) s = .next (given .refusedHalted)) ∧
      (o = .unmatched →
        exec (.downstreamPacket words p) s = .next ((given .unmapped).report (report .unmapped none))) ∧
      (∀ pl : Placement, o = .notContained pl → exec (.downstreamPacket words p) s =
        .next ((given .unmapped).report (report .unmapped (some ⟨pl.index, pl.localAddress, 0⟩)))) ∧
      (∀ pl : Placement, o = .denied pl → exec (.downstreamPacket words p) s =
        .next ((given .denied).report (report .accessDenied (some ⟨pl.index, pl.localAddress, 0⟩)))) ∧
      ∀ pl : Placement, o ≠ .postingRefused pl

/-- R59, R60: a request whose tag is that of an entry in use that is no orphan is discarded, whatever its decode's
outcome. R59: when a tag is in use. -/
def Obligations.TagInUseDiscarded : Prop :=
  (∀ (s : State) (tag : Tag), s.tagInUse tag = true ↔
    ∃ i : Fin 24, s.rt.entries[i].state ≠ .free ∧ s.rt.entries[i].orphan = false ∧ s.rt.entries[i].tag = tag) ∧
  ∀ (words : List Word) (p : Fin 24) (s : State) (h : Header) (data : List Word) (k : DataKind) (i : Fin 24),
    s.link.state = .up → PacketReceived words h data → DownstreamKind.ofCode h.kindCode = some (.data k) →
    k ≠ .writePosted → s.link.nonPosted.outstanding ≠ 0 → formWellFormed (.data k) h data = true →
    s.rt.entries[i].state ≠ .free → s.rt.entries[i].orphan = false → s.rt.entries[i].tag = h.tag →
    exec (.downstreamPacket words p) s = .next (State.report
      { kind := .tagInUse, source := .fromDecode, packet := some ⟨h.kindCode, h.cls, h.address, h.length⟩
        tag := some h.tag, generation := none, window := none, firstData := data.head? }
      { s with link := { s.link with nonPosted := ⟨s.link.nonPosted.outstanding - 1, s.link.nonPosted.awaiting + 1⟩ } })

/-- R140, R144: a management request is taken into slot 0 if it is FREE and into slot 1 otherwise, WAITING, last in the
arrival order, with its verdict. -/
def Obligations.ManagementRequestTaken : Prop :=
  ∀ (words : List Word) (p : Fin 24) (s : State) (h : Header) (data : List Word) (m : MgmtKind) (k : Fin 2),
    s.link.state = .up → PacketReceived words h data → DownstreamKind.ofCode h.kindCode = some (.mgmt m) →
    s.link.management.outstanding ≠ 0 → formWellFormed (.mgmt m) h data = true →
    (s.mu.slots[0] = .free ∧ k = 0 ∨ s.mu.slots[0] ≠ .free ∧ s.mu.slots[1] = .free ∧ k = 1) →
    exec (.downstreamPacket words p) s = .next { s with
      link := { s.link with management := ⟨s.link.management.outstanding - 1, s.link.management.awaiting⟩ }
      mu := { s.mu with
        arrivals := s.mu.arrivals ++ [k]
        slots := s.mu.slots.set k (.waiting
          { kind := m, cls := h.cls, tag := h.tag, address := h.address, length := h.length, data := data
            manager := s.mu.managers.getLsbD h.cls.toNat }) } }

/-- R9 to R17, Table 1-4: the decode's tests in their order, with the range of R2 and the address of R17 in numbers. That an
entry with a size code above 20 contains nothing is the model's (DEDUCED, log entry 14); no active bank holds one (R26). -/
def Obligations.DecodeFollowsItsTests : Prop :=
  (∀ (h : Header) (k : DataKind) (data : List Word), h.dataRequest k data =
    { kind := k, cls := h.cls, tag := h.tag, linkAddress := h.address, length := h.length.toNat
      firstMask := h.firstMask, lastMask := h.lastMask, data := data }) ∧
  ∀ (bank : Bank) (q : DataRequest),
    let first := q.linkAddress.toNat * 4
    let last := first + 4 * (q.length - 1)
    let holds (e : WindowEntry) (byte : Nat) : Prop :=
      e.sizeCode.toNat ≤ 20 ∧ e.linkBase.toNat * 4096 ≤ byte ∧
        byte < e.linkBase.toNat * 4096 + 4096 * 2 ^ e.sizeCode.toNat
    decode .closed bank q = .closed ∧ decode .halted bank q = .halted ∧
    ((∀ i : Fin 16, bank[i].enabled = true → ¬holds bank[i] first) → decode .opened bank q = .unmatched) ∧
    ∀ i : Fin 16, bank[i].enabled = true → holds bank[i] first →
      (∀ j : Fin 16, j < i → bank[j].enabled = true → ¬holds bank[j] first) →
      let flag := if q.kind = .read then bank[i].rights.getLsbD (2 * q.cls.toNat)
        else bank[i].rights.getLsbD (2 * q.cls.toNat + 1)
      ∃ pl : Placement, pl.index = i ∧ pl.laneSwap = bank[i].laneSwap ∧ pl.burstAllowed = bank[i].burstAllowed ∧
        pl.attr = bank[i].attr ∧
        (bank[i].translationBase.toNat * 4096 + 4096 * 2 ^ bank[i].sizeCode.toNat ≤ 2 ^ 32 →
          pl.localAddress.toNat * 4 = bank[i].translationBase.toNat * 4096 + first - bank[i].linkBase.toNat * 4096) ∧
        decode .opened bank q =
          if ¬(last < 2 ^ 32 ∧ holds bank[i] last) then .notContained pl
          else if flag = false then .denied pl
          else if q.kind = .writePosted ∧ bank[i].postingAllowed = false then .postingRefused pl
          else .accepted pl bank[i].order

/-! ## The execution of management requests -/

/-- MGMT_READ, R145: the replies. Tables 11-8, 11-9 and 11-10, R23, R124 and R181: which indices the map holds, and the
fields that a read of each object returns, with their codes. A count is shown modulo its field's width (DEDUCED, log entry
19). The bits of no field are not spoken of here (log entry 25). -/
def Obligations.ReadReturnsObjectValues : Prop :=
  (∀ (s : State) (k : Fin 2) (r : MgmtRequest), s.Executes k r → r.kind = .mgmtRead → r.manager = true →
    (∀ os : List ObjectId, (List.range r.length.toNat).map (fun n => objectAt (r.address.toNat + n)) = os.map some →
      exec .mgmtRead s = .next (s.replied k r ⟨.done, os.map s.readObject⟩)) ∧
    ((∃ n, n < r.length.toNat ∧ objectAt (r.address.toNat + n) = none) →
      exec .mgmtRead s = .next (s.replied k r ⟨.badObject, []⟩))) ∧
  (∀ index : Nat, objectAt index = none ↔
    ¬(index ≤ 0x005 ∨ 0x010 ≤ index ∧ index ≤ 0x01B ∨ 0x100 ≤ index ∧ index ≤ 0x13F ∨
      0x200 ≤ index ∧ index ≤ 0x23F)) ∧
  (∀ s : State,
    s.Shows 0x000 0 0x22405A01#32 ∧
    s.Shows 0x001 0 s.mu.port.code ∧ s.Shows 0x001 2 (BitVec.ofBool (s.link.state == .up)) ∧
    s.Shows 0x001 3 (BitVec.ofBool (s.wd.commit == .draining)) ∧ s.Shows 0x001 8 s.wd.generation ∧
    s.Shows 0x001 16 (BitVec.ofNat 6 s.wd.drain) ∧
    s.Shows 0x002 0 s.mu.accessTimeout ∧ s.Shows 0x002 16 s.mu.retryLimit ∧
    s.Shows 0x003 0 s.mu.retryBackoff ∧ s.Shows 0x003 8 s.mu.fairness ∧
    s.Shows 0x003 12 (BitVec.ofBool s.mu.haltOnFatal) ∧ s.Shows 0x003 16 s.mu.managers ∧
    s.Shows 0x004 0 (BitVec.ofBool s.mu.portEnable) ∧ s.Shows 0x004 4 s.mu.portBase ∧
    s.Shows 0x005 0 (BitVec.ofNat 6 s.pwq.length) ∧ s.Shows 0x005 8 (BitVec.ofNat 5 s.inUseCount) ∧
    s.Shows 0x005 16 (BitVec.ofNat 4 s.nq.length) ∧
    s.Shows 0x010 0 s.ecu.mask ∧ (∀ n : Fin 13, s.Shows 0x011 (2 * n.val) s.ecu.severityMap[n].code) ∧
    s.Shows 0x012 0 s.ecu.notify ∧
    s.Shows 0x013 0 (BitVec.ofBool s.ecu.record.isSome) ∧
    s.Shows 0x013 2 (match s.ecu.worst with
      | none => 0#2 | some .correctable => 1#2 | some .nonfatal => 2#2 | some .fatal => 3#2) ∧
    s.Shows 0x013 16 s.ecu.stamp ∧
    s.Shows 0x01A 0 s.ecu.nextErrors ∧ s.Shows 0x01B 0 s.ecu.overflow ∧ s.Shows 0x01B 16 s.ecu.discarded ∧
    (∀ p : Nat × Bank, p ∈ [(0x100, s.wd.staging), (0x200, s.wd.active)] → ∀ i : Fin 16,
      let e := p.2[i]
      s.Shows (p.1 + 4 * i.val) 0 (BitVec.ofBool e.enabled) ∧ s.Shows (p.1 + 4 * i.val) 4 e.sizeCode ∧
      s.Shows (p.1 + 4 * i.val) 9 (BitVec.ofBool e.postingAllowed) ∧
      s.Shows (p.1 + 4 * i.val) 10 (BitVec.ofBool (e.order == .relaxed)) ∧
      s.Shows (p.1 + 4 * i.val) 12 e.laneSwap.code ∧ s.Shows (p.1 + 4 * i.val) 14 (BitVec.ofBool e.burstAllowed) ∧
      s.Shows (p.1 + 4 * i.val) 16 e.attr ∧ s.Shows (p.1 + 4 * i.val + 1) 12 e.linkBase ∧
      s.Shows (p.1 + 4 * i.val + 2) 12 e.translationBase ∧ s.Shows (p.1 + 4 * i.val + 3) 0 e.rights) ∧
    (s.ecu.record = none → ∀ n : Fin 6, s.Shows (0x014 + n.val) 0 0#32) ∧
    ∀ e : ErrorRecord, s.ecu.record = some e →
      s.Shows 0x014 0 (BitVec.ofNat 4 e.report.kind.number.val) ∧ s.Shows 0x014 4 e.report.source.code ∧
      s.Shows 0x014 6 e.severity.code ∧
      s.Shows 0x014 8 ((e.report.packet.map PacketFields.kindCode).getD 0) ∧
      s.Shows 0x014 12 ((e.report.packet.map PacketFields.cls).getD 0) ∧
      s.Shows 0x014 16 (e.report.tag.getD 0) ∧
      s.Shows 0x014 24 ((e.report.packet.map PacketFields.length).getD 0) ∧
      s.Shows 0x015 2 ((e.report.packet.map PacketFields.linkAddress).getD 0) ∧
      s.Shows 0x016 2 ((e.report.window.map WindowCapture.localAddress).getD 0) ∧
      s.Shows 0x017 0 (e.report.generation.getD 0) ∧
      s.Shows 0x017 8 ((e.report.window.map fun w => BitVec.ofNat 4 w.index.val).getD 0) ∧
      s.Shows 0x017 16 ((e.report.window.map fun w => BitVec.ofNat 5 w.progress).getD 0) ∧
      s.Shows 0x018 0 (e.report.firstData.getD 0) ∧
      s.Shows 0x019 0 (BitVec.ofBool e.report.packet.isSome) ∧ s.Shows 0x019 1 (BitVec.ofBool e.report.tag.isSome) ∧
      s.Shows 0x019 2 (BitVec.ofBool e.report.generation.isSome) ∧
      s.Shows 0x019 3 (BitVec.ofBool e.report.window.isSome) ∧
      s.Shows 0x019 4 (BitVec.ofBool e.report.firstData.isSome)) ∧
  [PortState.closed, .opened, .halted].map PortState.code = [0, 1, 2] ∧
  [Severity.correctable, .nonfatal, .fatal].map Severity.code = [0, 1, 2] ∧
  [Source.fromLink, .fromDecode, .fromLocal, .fromManagement].map Source.code = [0, 1, 2, 3] ∧
  [LaneSwap.noSwap, .swap16, .swap32, .invalid].map LaneSwap.code = [0, 1, 2, 3] ∧
  [ErrorKind.linkCheck, .malformed, .creditOverrun, .tagInUse, .unmapped, .accessDenied, .postingRefused, .closedWrite,
    .localRetryLimit, .localTargetError, .localTimeout, .localParity, .mgmtDenied].map ErrorKind.number =
    List.finRange 13

/-- MGMT_WRITE, R146: the first check that fails, in the first object that fails one, gives the status and nothing is
written; else all objects are written at one moment. R153: the same step halts the port when the write enables
halt-on-fatal while FATAL is held. When that halt ends the drain of a COMMIT, the COMMIT's DONE becomes ready before this
write's reply, which R141 gives at the end of the step (DEDUCED, log entry 9). The objects are written in order of rising
index, each as ObjectsReadBack says. Table 11-8, second column, and R180: which checks a word for an index fails. -/
def Obligations.WriteIsAllOrNothing : Prop :=
  (∀ (s : State) (k : Fin 2) (r : MgmtRequest), s.Executes k r → r.kind = .mgmtWrite → r.manager = true →
    r.data.length = r.length.toNat →
    (∀ (n : Nat) (st : MgmtStatus), n < r.data.length →
      (∀ m, m < n → writeFault (r.address.toNat + m) (r.data.getD m 0) = none) →
      writeFault (r.address.toNat + n) (r.data.getD n 0) = some st →
      exec .mgmtWrite s = .next (s.replied k r ⟨st, []⟩)) ∧
    (∀ os : List ObjectId, (List.range r.data.length).map (fun n => objectAt (r.address.toNat + n)) = os.map some →
      (∀ n, n < r.data.length → writeFault (r.address.toNat + n) (r.data.getD n 0) = none) →
      let written := s.writeObjects (os.zip r.data)
      exec .mgmtWrite s = .next (State.replied
        (if s.mu.haltOnFatal = false ∧ written.mu.haltOnFatal = true ∧ s.ecu.worst = some .fatal ∧ s.mu.port ≠ .halted
          then written.enterHalted else written) k r ⟨.done, []⟩))) ∧
  (∀ (s : State) (o : ObjectId) (w : Word) (rest : List (ObjectId × Word)), s.writeObjects [] = s ∧
    s.writeObjects ((o, w) :: rest) = (s.writeObject o w).writeObjects rest) ∧
  ∀ (index : Nat) (w : Word), writeFault index w =
    if ¬(index ≤ 0x005 ∨ 0x010 ≤ index ∧ index ≤ 0x01B ∨ 0x100 ≤ index ∧ index ≤ 0x13F ∨
        0x200 ≤ index ∧ index ≤ 0x23F) then some .badObject
    else if ¬(0x002 ≤ index ∧ index ≤ 0x004 ∨ 0x010 ≤ index ∧ index ≤ 0x012 ∨ 0x100 ≤ index ∧ index ≤ 0x13F) then
      some .readOnly
    else if index = 0x002 ∧ (w.extractLsb' 0 12 = 0 ∨ w.extractLsb' 16 4 = 0) ∨
        index = 0x003 ∧ (w.extractLsb' 0 8 = 0 ∨ w.extractLsb' 8 4 = 0 ∨ w.extractLsb' 16 4 = 0) ∨
        index = 0x011 ∧ (∃ n : Fin 13, w.extractLsb' (2 * n.val) 2 = 3) then some .badValue
    else none

/-- HALT_ON_FATAL_ENABLE, R153: the MGMT_WRITE that changes halt-on-fatal from disabled to enabled. That no other request
is executed by this command is the model's choice (log entry 4). When the halt ends the drain of a COMMIT, the COMMIT's DONE
becomes ready before this write's reply, which R141 gives at the end of the step (DEDUCED, log entry 9). -/
def Obligations.EnablingHaltOnFatalHalts : Prop :=
  ∀ (s : State) (k : Fin 2) (r : MgmtRequest) (os : List ObjectId), s.Executes k r → r.kind = .mgmtWrite →
    r.manager = true → r.data.length = r.length.toNat →
    (List.range r.data.length).map (fun n => objectAt (r.address.toNat + n)) = os.map some →
    (∀ n, n < r.data.length → writeFault (r.address.toNat + n) (r.data.getD n 0) = none) →
    s.mu.haltOnFatal = false →
    let written := s.writeObjects (os.zip r.data)
    (written.mu.haltOnFatal = true → exec .haltOnFatalEnable s = .next (State.replied
      (if s.ecu.worst = some .fatal ∧ s.mu.port ≠ .halted then written.enterHalted else written) k r ⟨.done, []⟩)) ∧
    (written.mu.haltOnFatal = false → exec .haltOnFatalEnable s = .next s)

/-- R144, R107: a request of a class that was no manager class is answered DENIED and reported, whatever its kind. When the
report's halt ends the drain of a COMMIT, the COMMIT's DONE becomes ready before the DENIED, which R141 gives at the end of
the step (DEDUCED, log entry 9). Table 11-2: the kind code captured. Table 11-7: which command a code names. -/
def Obligations.NonManagerDenied : Prop :=
  ([1, 2, 3, 4, 5, 6].map CommandCode.ofAddress =
    [some .openPort, some .closePort, some .commit, some .discardStaging, some .clearErrors, some .resetPart]) ∧
  (∀ c : WordAddress, CommandCode.ofAddress c = none ↔ c = 0 ∨ 6 < c.toNat) ∧
  ∀ (s : State) (k : Fin 2) (r : MgmtRequest), s.Executes k r → r.manager = false →
    let code : BitVec 4 := match r.kind with
      | .mgmtRead => 4
      | .mgmtWrite => 5
      | .mgmtCommand => 6
    exec r.instr s = .next (State.replied (s.report
      { kind := .mgmtDenied, source := .fromManagement, packet := some ⟨code, r.cls, r.address, r.length⟩
        tag := some r.tag, generation := none, window := none, firstData := r.data.head? }) k r ⟨.denied, []⟩)

/-- OPEN, R150, and CLOSE, R151. -/
def Obligations.OpenAndCloseFollowPortState : Prop :=
  ∀ (s : State) (k : Fin 2) (r : MgmtRequest),
    let moved (p : PortState) : State := { s with mu := { s.mu with port := p } }
    (s.ExecutesCommand k r 1 →
      (s.mu.port = .closed → exec .openPort s = .next ((moved .opened).replied k r ⟨.done, []⟩)) ∧
      (s.mu.port = .opened → exec .openPort s = .next (s.replied k r ⟨.wrongState, []⟩)) ∧
      (s.mu.port = .halted → s.ecu.worst = some .fatal ∧ s.mu.haltOnFatal = true →
        exec .openPort s = .next (s.replied k r ⟨.errorPending, []⟩)) ∧
      (s.mu.port = .halted → ¬(s.ecu.worst = some .fatal ∧ s.mu.haltOnFatal = true) →
        exec .openPort s = .next ((moved .opened).replied k r ⟨.done, []⟩))) ∧
    (s.ExecutesCommand k r 2 →
      (s.mu.port = .opened → exec .closePort s = .next ((moved .closed).replied k r ⟨.done, []⟩)) ∧
      (s.mu.port ≠ .opened → exec .closePort s = .next (s.replied k r ⟨.wrongState, []⟩)))

/-- COMMIT, R25 to R27: BUSY while DRAINING; else the first entry that validation rejects, or the swap, answered at once
when no item is in flight and held back otherwise. The bits of no field of a reply's word are zero (DEDUCED, log entry
25). -/
def Obligations.CommitSwapsOrRefuses : Prop :=
  ∀ (s : State) (k : Fin 2) (r : MgmtRequest), s.ExecutesCommand k r 3 →
    (s.wd.commit = .draining → exec .commit s = .next (s.replied k r ⟨.busy, []⟩)) ∧
    (s.wd.commit = .idle →
      (∀ (i : Fin 16) (why : TableReason), s.wd.staging[i].rejected = some why →
        (∀ j : Fin 16, j < i → s.wd.staging[j].rejected = none) →
        exec .commit s = .next (s.replied k r
          ⟨.invalidTable, [0#20 ++ why.code ++ 0#4 ++ BitVec.ofNat 4 i.val]⟩)) ∧
      ((∀ i : Fin 16, s.wd.staging[i].rejected = none) →
        let items := s.pwq.length + s.inUseCount
        let swapped (c : CommitState) : State := { s with wd :=
          { staging := s.wd.staging, active := s.wd.staging, generation := s.wd.generation + 1, commit := c
            drain := items } }
        (items = 0 → exec .commit s = .next ((swapped .idle).replied k r
          ⟨.done, [(s.wd.generation + 1).setWidth 32]⟩)) ∧
        (items ≠ 0 → exec .commit s = .next { swapped .draining with
          mu := { s.mu with slots := s.mu.slots.set k (.held r) } })))

/-- R26, Table 2-1: when validation accepts an entry, and which reason it gives. -/
def Obligations.ValidationConditions : Prop :=
  ∀ e : WindowEntry,
    let size := 4096 * 2 ^ e.sizeCode.toNat
    let link := e.linkBase.toNat * 4096
    let translation := e.translationBase.toNat * 4096
    (e.enabled = false → e.rejected = none) ∧
    (e.enabled = true → e.rejected =
      if 20 < e.sizeCode.toNat then some .badSize
      else if 2 ^ 32 < link + size then some .beyondSpace
      else if ¬size ∣ link then some .misalignedBase
      else if ¬size ∣ translation then some .misalignedTranslation
      else if e.laneSwap = .invalid then some .badCode
      else none)

/-- DISCARD_STAGING, R24. -/
def Obligations.DiscardStagingCopiesActive : Prop :=
  ∀ (s : State) (k : Fin 2) (r : MgmtRequest), s.ExecutesCommand k r 4 →
    exec .discardStaging s =
      .next (State.replied { s with wd := { s.wd with staging := s.wd.active } } k r ⟨.done, []⟩)

/-- CLEAR_ERRORS, R122. -/
def Obligations.ClearErrorsNeedsStamp : Prop :=
  ∀ (s : State) (k : Fin 2) (r : MgmtRequest), s.ExecutesCommand k r 5 →
    (r.data = [] → exec .clearErrors s = .next (s.replied k r ⟨.badValue, []⟩)) ∧
    (∀ (w : Word) (more : List Word), r.data = w :: more → w.extractLsb' 0 16 = s.ecu.stamp →
      exec .clearErrors s = .next (State.replied
        { s with ecu := { s.ecu with record := none, worst := none, nextErrors := 0, overflow := 0, discarded := 0 } }
        k r ⟨.done, []⟩)) ∧
    (∀ (w : Word) (more : List Word), r.data = w :: more → w.extractLsb' 0 16 ≠ s.ecu.stamp →
      exec .clearErrors s = .next (s.replied k r ⟨.stale, []⟩))

/-- RESET_PART and RESET_PART_TAKES_EFFECT, R156 and R157: at once with no transaction in progress, else when it has
ended; every block but the Error Capture Unit returns to its power-on values. The model's choices in these values are the
fields of a FREE entry that R56 does not name (log entry 7), the clear session-start mark (log entry 16) and the notice port
that drives nothing (log entry 10); that the queue of commands stays is log entry 1, and that RESET_PART_TAKES_EFFECT
changes nothing with no reset pending or with a transaction in progress is log entry 3. -/
def Obligations.ResetPartKeepsRecords : Prop :=
  ∀ s : State,
    let done : State := { State.reset with
      ecu := s.ecu, pending := s.pending
      mu := { State.reset.mu with port := if s.ecu.worst = some .fatal then .halted else .closed } }
    (∀ (k : Fin 2) (r : MgmtRequest), s.ExecutesCommand k r 6 →
      (s.lbe.engine = .idle → exec .resetPart s = .next done) ∧
      (s.lbe.engine ≠ .idle → exec .resetPart s = .next { s with mu := { s.mu with
        resetPending := true, slots := s.mu.slots.set k (.held r) } })) ∧
    (s.mu.resetPending = true → s.lbe.engine = .idle → exec .resetPartTakesEffect s = .next done) ∧
    (s.mu.resetPending = false ∨ s.lbe.engine ≠ .idle → exec .resetPartTakesEffect s = .next s)

/-- UNKNOWN_COMMAND_CODE, R155. -/
def Obligations.UnknownCodeAnsweredBadValue : Prop :=
  ∀ (s : State) (k : Fin 2) (r : MgmtRequest) (code : WordAddress), s.ExecutesCommand k r code →
    (code = 0 ∨ 6 < code.toNat) → exec .unknownCommandCode s = .next (s.replied k r ⟨.badValue, []⟩)

/-- Table 11-8, Table 11-9, R180: a read-write object reads back what was written into its fields; its other bits read as
zero. R146: the write changes no other object, and nothing but the settings, the error unit's mask, map and notify enables
and the staging bank. -/
def Obligations.ObjectsReadBack : Prop :=
  ∀ (s : State) (o : ObjectId) (w : Word), o.writable = true → o.inRange w = true →
    let t := s.writeObject o w
    t.readObject o = w &&& o.fieldMask ∧
    (∀ o' : ObjectId, o' ≠ o → t.readObject o' = s.readObject o') ∧
    t = { s with
      wd := { s.wd with staging := t.wd.staging }
      ecu := { s.ecu with mask := t.ecu.mask, severityMap := t.ecu.severityMap, notify := t.ecu.notify }
      mu := { s.mu with
        accessTimeout := t.mu.accessTimeout, retryLimit := t.mu.retryLimit, retryBackoff := t.mu.retryBackoff
        fairness := t.mu.fairness, haltOnFatal := t.mu.haltOnFatal, managers := t.mu.managers
        portEnable := t.mu.portEnable, portBase := t.mu.portBase } }

/-! ## The local bus -/

/-- ARBITRATION_DECISION, R84 to R86, R42, R65, R88, R98, R99 (Table 5-2). The head is granted alone, or beside a READY entry
while the streak is below the fairness limit, and then the streak rises. The oldest READY entry is granted alone, or beside
the head once the streak has reached the limit, and the streak becomes 0. With no offer nothing happens. A timer that runs
is held as its interval by the model's choice (log entry 8). -/
def Obligations.DecisionFollowsFairness : Prop :=
  ∀ s : State, s.lbe.engine = .idle →
    let requesting (c : CurrentItem) (streak : Nat) : LocalBusEngine := { s.lbe with
      engine := .requesting, current := some c, streak := streak, accessTimer := some (s.mu.accessTimeout.toNat * 16) }
    (∀ (r : WriteRecord) (rest : List WriteRecord), s.HeadOffered → s.pwq = r :: rest →
      let granted (streak : Nat) : State := { s with
        pwq := { r with state := .active } :: rest, lbe := requesting .head streak }
      ((∀ i : Fin 24, ¬s.ReadyOffered i) → exec .arbitrationDecision s = .next (granted s.lbe.streak)) ∧
      ((∃ i : Fin 24, s.ReadyOffered i) → s.lbe.streak < s.mu.fairness.toNat →
        exec .arbitrationDecision s = .next (granted (s.lbe.streak + 1)))) ∧
    (∀ i : Fin 24, s.ReadyOffered i → (¬s.HeadOffered ∨ s.mu.fairness.toNat ≤ s.lbe.streak) →
      exec .arbitrationDecision s = .next { s with
        rt := { s.rt with entries := s.rt.entries.set i { s.rt.entries[i] with state := .active } }
        lbe := { requesting (.entry i) 0 with
          parityMarks := if s.rt.entries[i].progress = 0 then s.lbe.parityMarks.set i false
            else s.lbe.parityMarks } }) ∧
    (¬s.HeadOffered → (∀ i : Fin 24, ¬s.ReadyOffered i) → exec .arbitrationDecision s = .next s)

/-- BUS_GRANT, R88 to R90, R92, R99: the engine enters OWNING and begins the first cycle at the item's progress. That the
pins are held as one record of the cycle is the model's choice (log entry 12), and so is that a write drives no parity bit
on a lane that is not enabled, of which R99 says nothing (log entry 11). Cycle.BeginsAt and Cycle.DrivesBeat of Safety.lean
give every field of the cycle. R42, R65: what the record or the entry that is current supplies. -/
def Obligations.GrantBeginsFirstCycle : Prop :=
  (∀ (s : State) (it : Item), s.lbe.engine = .requesting → s.currentItem = some it →
    ∃ c : Cycle,
      exec .busGrant s = .next { s with lbe := { s.lbe with
        engine := .owning, beat := some ⟨it.progress, it.direction⟩, cycle := some c } } ∧
      c.BeginsAt it it.progress ∧ c.DrivesBeat it it.progress) ∧
  (∀ (s : State) (r : WriteRecord) (rest : List WriteRecord), s.lbe.current = some .head → s.pwq = r :: rest →
    s.currentItem = some
      { placement := r.placement, length := r.length, firstMask := r.firstMask, lastMask := r.lastMask, data := r.data
        direction := .write, progress := r.progress, retryCount := r.retryCount }) ∧
  ∀ (s : State) (i : Fin 24) (e : TrackerEntry) (p : Placement), s.lbe.current = some (.entry i) →
    s.rt.entries[i] = e → e.placement = some p → s.currentItem = some
      { placement := p, length := e.length, firstMask := e.firstMask, lastMask := e.lastMask, data := e.data
        direction := if e.kind = .read then .read else .write, progress := e.progress, retryCount := e.retryCount }

/-- ACK_ANSWER, R93, R43, R66, R91, R98: a word that is not the last. The progress rises by one, a read stores its word,
the timer restarts and the next beat is driven: within the burst, or as a new cycle. The cycle is held as one record and a
timer that runs as its interval by the model's choice (log entries 12 and 8), and a write drives no parity bit on a lane that
is not enabled (log entry 11). Within a burst the address phase stays and the beat is the next word's; else a new cycle begins
there, of one beat where burst is not allowed (Cycle.BeginsAt, Cycle.DrivesBeat). -/
def Obligations.AckAdvancesItem : Prop :=
  ∀ (s : State) (lanes : Word) (parity : Nibble) (it : Item) (c : Cycle), s.lbe.cycle = some c →
    s.currentItem = some it → it.progress + 1 < it.length →
    ∃ next : Cycle, next.DrivesBeat it (it.progress + 1) ∧
    (2 ≤ c.beats →
      next.address = c.address ∧ next.direction = c.direction ∧ next.attr = c.attr ∧ next.beats = c.beats) ∧
    (c.beats < 2 → next.BeginsAt it (it.progress + 1)) ∧
    let moved : LocalBusEngine := { s.lbe with
      accessTimer := some (s.mu.accessTimeout.toNat * 16), beat := some ⟨it.progress + 1, it.direction⟩
      cycle := some next }
    (∀ (r : WriteRecord) (rest : List WriteRecord), s.BeatOf .head → s.pwq = r :: rest →
      exec (.ackAnswer lanes parity) s = .next { s with
        pwq := { r with progress := r.progress + 1 } :: rest, lbe := moved }) ∧
    (∀ i : Fin 24, s.BeatOf (.entry i) → s.rt.entries[i].kind = .writeConfirmed →
      exec (.ackAnswer lanes parity) s = .next { s with
        rt := { s.rt with entries :=
          s.rt.entries.set i { s.rt.entries[i] with progress := s.rt.entries[i].progress + 1 } }
        lbe := moved }) ∧
    (∀ i : Fin 24, s.BeatOf (.entry i) → s.rt.entries[i].kind = .read →
      let mask := if it.progress = 0 then it.firstMask
        else if it.progress + 1 = it.length then it.lastMask else 15
      exec (.ackAnswer lanes parity) s = .next { s with
        rt := { s.rt with entries := s.rt.entries.set i { s.rt.entries[i] with
          progress := s.rt.entries[i].progress + 1
          data := s.rt.entries[i].data ++ [maskWord mask (swapWord it.placement.laneSwap lanes)] } }
        lbe := { moved with
          parityMarks := if parityError (swapEnables it.placement.laneSwap mask) lanes parity = true
            then s.lbe.parityMarks.set i true else s.lbe.parityMarks } })

/-- ACK_ANSWER, R93, R46, R100: the last word of the head is acknowledged, and the record retires as performed. -/
def Obligations.LastAckRetiresHead : Prop :=
  ∀ (s : State) (lanes : Word) (parity : Nibble) (r : WriteRecord) (rest : List WriteRecord), s.BeatOf .head →
    s.pwq = r :: rest → r.progress + 1 = r.length →
    exec (.ackAnswer lanes parity) s =
      .next (State.retirement r.generation { s with pwq := rest, lbe := s.lbe.released })

/-- ACK_ANSWER, R93, R67, R99, R100: the last word of an entry is acknowledged. It is COMPLETE with OK, or, for a read whose
mark is or becomes set, with DATA_PARITY, which is then reported. That the report, and a halt it causes, stand in the same
step and so before the engine's next decision is the model's choice (log entry 24). -/
def Obligations.LastAckCompletesEntry : Prop :=
  ∀ (s : State) (lanes : Word) (parity : Nibble) (i : Fin 24) (e : TrackerEntry) (p : Placement), s.BeatOf (.entry i) →
    s.rt.entries[i] = e → e.placement = some p → e.orphan = false → e.progress + 1 = e.length →
    let mask := if e.progress = 0 then e.firstMask else e.lastMask
    let marked := parityError (swapEnables p.laneSwap mask) lanes parity || s.lbe.parityMarks[i]
    let complete (f : TrackerEntry) (b : LocalBusEngine) (st : Status) : State := { s with
      rt := { s.rt with
        completion := s.rt.completion ++ [i]
        entries := s.rt.entries.set i { f with
          progress := e.progress + 1, state := .complete, status := some st, writesAhead := 0 } }
      lbe := b.released }
    let marks : LocalBusEngine := { s.lbe with
      parityMarks := if parityError (swapEnables p.laneSwap mask) lanes parity = true
        then s.lbe.parityMarks.set i true else s.lbe.parityMarks }
    let collected : TrackerEntry := { e with data := e.data ++ [maskWord mask (swapWord p.laneSwap lanes)] }
    (e.kind = .writeConfirmed → exec (.ackAnswer lanes parity) s = .next (complete e s.lbe .ok)) ∧
    (e.kind = .read → marked = false → exec (.ackAnswer lanes parity) s = .next (complete collected marks .ok)) ∧
    (e.kind = .read → marked = true → exec (.ackAnswer lanes parity) s =
      .next ((complete collected marks .dataParity).report
        { kind := .localParity, source := .fromLocal, packet := some ⟨3, e.cls, e.linkAddress, BitVec.ofNat 5 e.length⟩
          tag := some e.tag, generation := some e.generation
          window := some ⟨p.index, p.localAddress, e.progress + 1⟩, firstData := none }))

/-- R79, R100, R101: the transaction of an orphan ends, with success, with a RETRY within the limit or with one of the
three failures. The entry becomes FREE and releases what it held, the Window Decoder is told (DrainCountsOut), no response is
built, and a failure alone is reported, with the kind of FailedEntryCompletesThenReports.
That a FREE entry keeps its other fields is the model's choice (log entry 7), and so is that the report, and a halt it
causes, stand in the same step and so before the engine's next decision (log entry 24). -/
def Obligations.OrphanEndsUnanswered : Prop :=
  ∀ (s : State) (i : Fin 24) (e : TrackerEntry) (p : Placement), s.rt.entries[i] = e → e.placement = some p →
    e.orphan = true →
    let freed := State.freeEntry i { s with lbe := s.lbe.released }
    (∀ u : State, State.freeEntry i u = State.countOut u.rt.entries[i].generation { u with
      link := if u.link.state = .up then
        { u.link with nonPosted := ⟨u.link.nonPosted.outstanding, u.link.nonPosted.awaiting + 1⟩ } else u.link
      rt := { u.rt with
        order := u.rt.order.filter (· != i), completion := u.rt.completion.filter (· != i)
        entries := u.rt.entries.set i { u.rt.entries[i] with
          state := .free, writesAhead := 0, orphan := false, status := none } } }) ∧
    (freed.wd = (s.countOut e.generation).wd ∧ freed.mu = (s.countOut e.generation).mu ∧
      freed.lbe = s.lbe.released) ∧
    (freed.ecu = s.ecu ∧ freed.rt.entries[i].state = .free ∧ freed.rt.order = s.rt.order.filter (· != i) ∧
      freed.rt.completion = s.rt.completion.filter (· != i) ∧ freed.pwq = s.pwq ∧ freed.nq = s.nq ∧
      (∀ j : Fin 24, j ≠ i → freed.rt.entries[j] = s.rt.entries[j]) ∧
      freed.link = if s.link.state = .up then
        { s.link with nonPosted := ⟨s.link.nonPosted.outstanding, s.link.nonPosted.awaiting + 1⟩ } else s.link) ∧
    (∀ (lanes : Word) (parity : Nibble), s.BeatOf (.entry i) → e.progress + 1 = e.length →
      let mask := if e.progress = 0 then e.firstMask else e.lastMask
      let bad := parityError (swapEnables p.laneSwap mask) lanes parity
      let acked (f : TrackerEntry) (b : LocalBusEngine) : State := State.freeEntry i { s with
        rt := { s.rt with entries := s.rt.entries.set i { f with progress := e.progress + 1 } }, lbe := b.released }
      let collected : TrackerEntry := { e with data := e.data ++ [maskWord mask (swapWord p.laneSwap lanes)] }
      let marks : LocalBusEngine := { s.lbe with
        parityMarks := if bad = true then s.lbe.parityMarks.set i true else s.lbe.parityMarks }
      (e.kind = .writeConfirmed → exec (.ackAnswer lanes parity) s = .next (acked e s.lbe)) ∧
      (e.kind = .read → bad = false → s.lbe.parityMarks[i] = false →
        exec (.ackAnswer lanes parity) s = .next (acked collected marks)) ∧
      (e.kind = .read → (bad = true ∨ s.lbe.parityMarks[i] = true) →
        exec (.ackAnswer lanes parity) s = .next ((acked collected marks).report
          { kind := .localParity, source := .fromLocal
            packet := some ⟨3, e.cls, e.linkAddress, BitVec.ofNat 5 e.length⟩, tag := some e.tag
            generation := some e.generation, window := some ⟨p.index, p.localAddress, e.progress + 1⟩
            firstData := none }))) ∧
    (s.BeatOf (.entry i) → e.retryCount + 1 ≤ s.mu.retryLimit.toNat → exec .retryAnswer s = .next freed) ∧
    (∀ (c : Instr) (f : Failure), s.FailsWith c (.entry i) e.retryCount f → exec c s = .next (freed.report
      { kind := f.errorKind, source := .fromLocal
        packet := some ⟨if e.kind = .read then 3 else 2, e.cls, e.linkAddress, BitVec.ofNat 5 e.length⟩
        tag := some e.tag, generation := some e.generation, window := some ⟨p.index, p.localAddress, e.progress⟩
        firstData := if e.kind = .read then none else e.data.head? }))

/-- RETRY_ANSWER within the limit, R95, R96: with the port not HALTED the item enters BACKOFF (R44, R68); while it is
HALTED the head is discarded and counted (R53), and an entry is COMPLETE with REFUSED_HALTED (R77). -/
def Obligations.RetryWithinLimit : Prop :=
  ∀ s : State,
    (∀ (r : WriteRecord) (rest : List WriteRecord), s.BeatOf .head → s.pwq = r :: rest →
      r.retryCount + 1 ≤ s.mu.retryLimit.toNat →
      (s.mu.port ≠ .halted → exec .retryAnswer s = .next { s with
        pwq := { r with retryCount := r.retryCount + 1, state := .backoff } :: rest
        lbe := { s.lbe.released with headTimer := some (s.mu.retryBackoff.toNat * 8) } }) ∧
      (s.mu.port = .halted → exec .retryAnswer s = .next (State.retirement r.generation { s with
        pwq := rest, lbe := s.lbe.released, ecu := { s.ecu with discarded := satIncr s.ecu.discarded } }))) ∧
    (∀ i : Fin 24, s.BeatOf (.entry i) → s.rt.entries[i].placement.isSome = true → s.rt.entries[i].orphan = false →
      s.rt.entries[i].retryCount + 1 ≤ s.mu.retryLimit.toNat →
      (s.mu.port ≠ .halted → exec .retryAnswer s = .next { s with
        rt := { s.rt with entries := s.rt.entries.set i { s.rt.entries[i] with
          retryCount := s.rt.entries[i].retryCount + 1, state := .backoff } }
        lbe := { s.lbe.released with
          entryTimers := s.lbe.entryTimers.set i (some (s.mu.retryBackoff.toNat * 8)) } }) ∧
      (s.mu.port = .halted → exec .retryAnswer s = .next { s with
        rt := { s.rt with
          completion := s.rt.completion ++ [i]
          entries := s.rt.entries.set i { s.rt.entries[i] with
            state := .complete, status := some .refusedHalted, writesAhead := 0 } }
        lbe := s.lbe.released }))

/-- ERROR_ANSWER, LOCAL_ACCESS_TIMER_EXPIRY and RETRY_ANSWER beyond the limit, R97, R98, R95, R47, R100, R101: the head
retires as failed, and then its error is reported, of the kind of Tables 3-4 and 5-3. That the report, and a halt it causes,
stand in the same step and so before the engine's next decision is the model's choice (log entry 24). -/
def Obligations.FailedHeadRetiresThenReports : Prop :=
  (Failure.errorKind .targetError = .localTargetError ∧ Failure.errorKind .timeout = .localTimeout ∧
    Failure.errorKind .retryLimit = .localRetryLimit) ∧
  ∀ (s : State) (c : Instr) (f : Failure) (r : WriteRecord) (rest : List WriteRecord),
    s.FailsWith c .head r.retryCount f → s.pwq = r :: rest →
    exec c s = .next (State.report
      { kind := f.errorKind, source := .fromLocal, packet := some ⟨1, r.cls, r.linkAddress, BitVec.ofNat 5 r.length⟩
        tag := none, generation := some r.generation
        window := some ⟨r.placement.index, r.placement.localAddress, r.progress⟩, firstData := r.data.head? }
      (State.retirement r.generation { s with pwq := rest, lbe := s.lbe.released }))

/-- The same three failures of a tracker entry that is no orphan, R67, R74, R100, R101: it is COMPLETE with the failure's
status, keeps its progress, joins the completion list, and then its error is reported (Tables 4-4 and 5-3: the status and
the kind of each failure), in the same step by the model's choice (log entry 24). -/
def Obligations.FailedEntryCompletesThenReports : Prop :=
  (Failure.errorKind .targetError = .localTargetError ∧ Failure.errorKind .timeout = .localTimeout ∧
    Failure.errorKind .retryLimit = .localRetryLimit ∧ Failure.status .targetError = .targetError ∧
    Failure.status .timeout = .timeout ∧ Failure.status .retryLimit = .retryLimit) ∧
  ∀ (s : State) (c : Instr) (f : Failure) (i : Fin 24) (e : TrackerEntry) (p : Placement), s.rt.entries[i] = e →
    s.FailsWith c (.entry i) e.retryCount f → e.placement = some p → e.orphan = false →
    exec c s = .next (State.report
      { kind := f.errorKind, source := .fromLocal
        packet := some ⟨if e.kind = .read then 3 else 2, e.cls, e.linkAddress, BitVec.ofNat 5 e.length⟩
        tag := some e.tag, generation := some e.generation, window := some ⟨p.index, p.localAddress, e.progress⟩
        firstData := if e.kind = .read then none else e.data.head? }
      { s with
        rt := { s.rt with
          completion := s.rt.completion ++ [i]
          entries := s.rt.entries.set i { e with state := .complete, status := some f.status, writesAhead := 0 } }
        lbe := s.lbe.released })

/-- BACKOFF_INTERVAL_EXPIRY, R45, R69, R96: the item is offered again, with its progress and its retry count. -/
def Obligations.BackoffExpiryOffersAgain : Prop :=
  ∀ s : State,
    (∀ (r : WriteRecord) (rest : List WriteRecord), s.lbe.headTimer.isSome = true → s.pwq = r :: rest →
      r.state = .backoff → exec (.backoffIntervalExpiry .head) s = .next { s with
        pwq := { r with state := .queued } :: rest, lbe := { s.lbe with headTimer := none } }) ∧
    (∀ i : Fin 24, s.lbe.entryTimers[i].isSome = true → s.rt.entries[i].state = .backoff →
      exec (.backoffIntervalExpiry (.entry i)) s = .next { s with
        rt := { s.rt with entries := s.rt.entries.set i { s.rt.entries[i] with state := .ready } }
        lbe := { s.lbe with entryTimers := s.lbe.entryTimers.set i none } })

/-! ## The upstream link -/

/-- TRANSMIT_CHOICE, R171, R172, R170, R130, R131: the first candidate in the order of R171 begins transmission. -/
def Obligations.TransmitChoiceFollowsPreference : Prop :=
  ∀ s : State, s.link.state = .up → s.link.tx = none →
    let credits := s.link.posted.awaiting ≠ 0 ∨ s.link.nonPosted.awaiting ≠ 0 ∨ s.link.management.awaiting ≠ 0
    (credits → exec .transmitChoice s = .next { s with link := { s.link with
      posted := ⟨s.link.posted.outstanding + s.link.posted.awaiting, 0⟩
      nonPosted := ⟨s.link.nonPosted.outstanding + s.link.nonPosted.awaiting, 0⟩
      management := ⟨s.link.management.outstanding + s.link.management.awaiting, 0⟩
      sessionStart := false, skip := s.skipAfter
      tx := some ⟨.credit, creditPacket s.link.posted.awaiting s.link.nonPosted.awaiting s.link.management.awaiting
        s.link.sessionStart⟩ } }) ∧
    (∀ (k : Fin 2) (more : List (Fin 2)) (r : MgmtRequest) (m : MgmtReply), ¬credits → s.mu.replies = k :: more →
      s.mu.slots[k] = .reply r m → exec .transmitChoice s = .next { s with link := { s.link with
        skip := s.skipAfter, tx := some ⟨.reply k, replyPacket r.tag m⟩ } }) ∧
    (∀ (n : Notice) (more : List Notice), ¬credits → s.mu.replies = [] → s.nq = n :: more →
      (s.rt.completion = [] ∨ s.link.skip = 4) → exec .transmitChoice s = .next { s with
        nq := more
        link := { s.link with seq := s.link.seq + 1, skip := 0, tx := some ⟨.notice, noticePacket s.link.seq n⟩ } }) ∧
    (∀ (i : Fin 24) (more : List (Fin 24)), ¬credits → s.mu.replies = [] → s.rt.completion = i :: more →
      (s.nq = [] ∨ s.link.skip ≠ 4) → exec .transmitChoice s = .next { s with link := { s.link with
        skip := s.skipAfter, tx := some ⟨.response i, responsePacket s.rt.entries[i]⟩ } }) ∧
    (¬credits → s.mu.replies = [] → s.nq = [] → s.rt.completion = [] → exec .transmitChoice s = .next s)

/-- RESPONSE_SENT, R71, R169, R30: the entry becomes FREE and leaves both lists, a non-posted credit is released and the
Window Decoder is told. That a FREE entry keeps the fields that R56 does not name is the model's choice (log entry 7).
MGMT_REPLY_SENT, R142: the slot becomes FREE and a management credit is released.
UPSTREAM_TRANSMISSION_ENDS, R166: a CREDIT or a NOTICE has been sent. -/
def Obligations.FinishedTransmissionsFreeSources : Prop :=
  ∀ s : State,
    s.link.txSource = s.link.tx.map Transmission.source ∧
    (∀ i : Fin 24, s.link.state = .up → s.link.txSource = some (.response i) →
      exec .responseSent s = .next (State.countOut s.rt.entries[i].generation { s with
        link := { s.link with
          tx := none, nonPosted := ⟨s.link.nonPosted.outstanding, s.link.nonPosted.awaiting + 1⟩ }
        rt := { s.rt with
          order := s.rt.order.filter (· != i), completion := s.rt.completion.filter (· != i)
          entries := s.rt.entries.set i { s.rt.entries[i] with
            state := .free, writesAhead := 0, orphan := false, status := none } } })) ∧
    (∀ k : Fin 2, s.link.state = .up → s.link.txSource = some (.reply k) → exec .mgmtReplySent s = .next { s with
      link := { s.link with
        tx := none, management := ⟨s.link.management.outstanding, s.link.management.awaiting + 1⟩ }
      mu := { s.mu with slots := s.mu.slots.set k .free, arrivals := s.mu.arrivals.filter (· != k)
                        replies := s.mu.replies.filter (· != k) } }) ∧
    (s.link.txSource = some .credit ∨ s.link.txSource = some .notice →
      exec .upstreamTransmissionEnds s = .next { s with link := { s.link with tx := none } })

/-- Table 11-3, R179: the words of the five upstream kinds, with zero in the bits of no field, and the check word that ends
every packet (R165). R72, R73: which packet answers an entry. Tables 11-4 to 11-7: the codes. Zero in the bits of no field of
a notice's payload is the model's inference (DEDUCED, log entry 25). -/
def Obligations.UpstreamPacketFields : Prop :=
  (∀ (tag : Tag) (st : Status) (len : Nat) (data : List Word), len ≤ 16 → ∃ w : Word,
    readDataPacket tag st len data = withCheck (w :: if st = .ok then data else []) ∧
    w = 9#4 ++ 0#2 ++ tag ++ 0#1 ++ st.code ++ 0#3 ++ BitVec.ofNat 5 (if st = .ok then len else 0) ++ 0#8) ∧
  (∀ (tag : Tag) (st : Status) (n : Nat), n ≤ 16 → ∃ w : Word, writeDonePacket tag st n = withCheck [w] ∧
    w = 10#4 ++ 0#2 ++ tag ++ 0#1 ++ st.code ++ 0#3 ++ BitVec.ofNat 5 n ++ 0#8) ∧
  (∀ (e : TrackerEntry) (st : Status), e.status = some st →
    (e.kind = .read → responsePacket e = readDataPacket e.tag st e.length e.data) ∧
    (e.kind = .writeConfirmed → responsePacket e = writeDonePacket e.tag st e.progress)) ∧
  (∀ (tag : Tag) (m : MgmtReply), m.words.length ≤ 8 → ∃ w : Word, replyPacket tag m = withCheck (w :: m.words) ∧
    w = 11#4 ++ 0#2 ++ tag ++ 0#1 ++ m.status.code ++ 0#4 ++ BitVec.ofNat 4 m.words.length ++ 0#8) ∧
  (∀ (seq : BitVec 8) (n : Notice), ∃ w : Word, noticePacket seq n = withCheck [w, n.payload] ∧
    w = 12#4 ++ 0#4 ++ seq ++ 0#7 ++ BitVec.ofBool n.isLocal ++ 0#8) ∧
  (∀ w : Word, (Notice.word w).payload = w ∧ (Notice.word w).isLocal = true) ∧
  (∀ (v : Severity) (k : ErrorKind) (o : CaptureOutcome) (c : BitVec 8), (Notice.error v k o c).isLocal = false ∧
    (Notice.error v k o c).payload = 0#8 ++ c ++ 0#6 ++ o.code ++ BitVec.ofNat 4 k.number.val ++ 0#2 ++ v.code) ∧
  (∀ (a b c : Nat) (start : Bool), a ≤ 32 → b ≤ 24 → c ≤ 2 → ∃ w : Word, creditPacket a b c start = withCheck [w] ∧
    w = 13#4 ++ 0#6 ++ BitVec.ofNat 6 a ++ 0#3 ++ BitVec.ofNat 5 b ++ 0#2 ++ BitVec.ofNat 2 c ++ 0#3 ++
      BitVec.ofBool start) ∧
  (∀ words : List Word, withCheck words = words ++ [0#16 ++ crc words]) ∧
  [Status.ok, .unmapped, .denied, .refusedClosed, .refusedHalted, .targetError, .timeout, .retryLimit,
    .dataParity].map Status.code = [0, 1, 2, 3, 4, 5, 6, 7, 8] ∧
  [MgmtStatus.done, .badObject, .readOnly, .badValue, .busy, .invalidTable, .wrongState, .errorPending, .stale,
    .denied].map MgmtStatus.code = [0, 1, 2, 3, 4, 5, 6, 7, 8, 9] ∧
  [Severity.correctable, .nonfatal, .fatal].map Severity.code = [0, 1, 2] ∧
  [CaptureOutcome.filled, .replaced, .notCaptured].map CaptureOutcome.code = [0, 1, 2] ∧
  [TableReason.badSize, .misalignedBase, .misalignedTranslation, .beyondSpace, .badCode].map TableReason.code =
    [1, 2, 3, 4, 5]

/-- R178, R162: a received packet gives its header and data words exactly when it ends with their check; Table 11-1: each
field of a downstream header is read from its bits, whatever the bits of no field hold. R162: the check itself, one bit after
another, each word from bit 31 down to bit 0. -/
def Obligations.ReceivedPacketReadBack : Prop :=
  (∀ (words : List Word) (h : Header) (data : List Word),
    readPacket words = some (h, data) ↔ PacketReceived words h data) ∧
  (∀ (h : Header) (free0 : BitVec 8) (free1 : BitVec 2),
    Header.read (h.kindCode ++ h.cls ++ h.tag ++ h.length ++ h.firstMask ++ h.lastMask ++ free0) (h.address ++ free1) =
      h) ∧
  ∀ words : List Word,
    let enter (r : BitVec 16) (b : Bool) : BitVec 16 :=
      if (r.getLsbD 15 ^^ b) = true then (r <<< 1) ^^^ 0x1021#16 else r <<< 1
    crc words = (words.flatMap fun w => (List.range 32).map fun n => w.getLsbD (31 - n)).foldl enter 0xFFFF#16

/-! ## The local notice port -/

/-- NOTICE_PORT_WRITE, R132, R133, R134: the four cases at word 0, ERROR at words 1 to 3, and no answer outside the region or
while the port is disabled. How long an answer stays is the model's choice (log entry 10); that bits 1 and 0 of the address
and the engine's state are not looked at is DEDUCED (log entry 15). -/
def Obligations.LocalWriteAnswered : Prop :=
  (∀ s : State, s.localNotices = (s.nq.filter Notice.isLocal).length) ∧
  ∀ (s : State) (address : Word) (enables : Nibble) (lanes : Word) (parity : Nibble),
    let answered (a : Answer) : State := { s with portAnswer := some ⟨a, none⟩ }
    let inRegion := s.mu.portEnable = true ∧ address.extractLsb' 4 28 = s.mu.portBase
    let bad := enables = 0 ∨ parityError enables lanes parity = true
    (¬inRegion → exec (.noticePortWrite address enables lanes parity) s = .next { s with portAnswer := none }) ∧
    (inRegion → address.extractLsb' 2 2 ≠ 0 →
      exec (.noticePortWrite address enables lanes parity) s = .next (answered .error)) ∧
    (inRegion → address.extractLsb' 2 2 = 0 →
      (s.link.state = .down → exec (.noticePortWrite address enables lanes parity) s = .next (answered .error)) ∧
      (s.link.state = .up → bad →
        exec (.noticePortWrite address enables lanes parity) s = .next (answered .error)) ∧
      (s.link.state = .up → ¬bad → 5 ≤ s.localNotices →
        exec (.noticePortWrite address enables lanes parity) s = .next (answered .retry)) ∧
      (s.link.state = .up → ¬bad → s.localNotices < 5 →
        exec (.noticePortWrite address enables lanes parity) s = .next { answered .ack with
          nq := s.nq ++ [.word (maskWord enables lanes)] }))

/-- NOTICE_PORT_READ, R134. How long an answer stays is the model's choice (log entry 10); that a read has no enables and
that bits 1 and 0 of the address and the engine's state are not looked at is DEDUCED (log entry 15). -/
def Obligations.LocalReadAnswered : Prop :=
  ∀ (s : State) (address : Word),
    let inRegion := s.mu.portEnable = true ∧ address.extractLsb' 4 28 = s.mu.portBase
    (¬inRegion → exec (.noticePortRead address) s = .next { s with portAnswer := none }) ∧
    (inRegion → address.extractLsb' 2 2 ≠ 0 →
      exec (.noticePortRead address) s = .next { s with portAnswer := some ⟨.error, none⟩ }) ∧
    (inRegion → address.extractLsb' 2 2 = 0 → ∃ (w : Word) (parity : Nibble),
      exec (.noticePortRead address) s = .next { s with portAnswer := some ⟨.ack, some (w, parity)⟩ } ∧
      w.toNat = (if s.link.state = .up then 5 - s.localNotices else 0) ∧ parityError 15 w parity = false)

/-! ## What the events share -/

/-- R109, R110, R115 to R118 (Table 6-4): what a report does to the records. -/
def Obligations.ReportIsRecorded : Prop :=
  (∀ c : BitVec 16, satIncr c = if c = 65535 then 65535 else c + 1) ∧
  ∀ (s : State) (r : Report),
    let u := (s.report r).ecu
    let v := s.ecu.severityMap[r.kind.number]
    (s.ecu.mask.getLsbD r.kind.number = true → s.report r = s) ∧
    (s.ecu.mask.getLsbD r.kind.number = false →
      u.mask = s.ecu.mask ∧ u.severityMap = s.ecu.severityMap ∧ u.notify = s.ecu.notify ∧
      (s.ecu.record = none → u.record = some ⟨v, r⟩ ∧ u.worst = some v ∧ u.stamp = s.ecu.stamp + 1 ∧
        u.nextErrors = s.ecu.nextErrors ∧ u.overflow = s.ecu.overflow) ∧
      (∀ old : ErrorRecord, s.ecu.record = some old → old.severity.code.toNat < v.code.toNat →
        u.record = some ⟨v, r⟩ ∧ u.worst = some v ∧ u.stamp = s.ecu.stamp + 1 ∧
        u.nextErrors = s.ecu.nextErrors ||| BitVec.twoPow 13 old.report.kind.number ∧
        u.overflow = satIncr s.ecu.overflow) ∧
      (∀ old : ErrorRecord, s.ecu.record = some old → v.code.toNat ≤ old.severity.code.toNat →
        u.record = s.ecu.record ∧ u.worst = s.ecu.worst ∧ u.stamp = s.ecu.stamp ∧
        u.nextErrors = s.ecu.nextErrors ||| BitVec.twoPow 13 r.kind.number ∧
        u.overflow = satIncr s.ecu.overflow))

/-- R111, R119, R120, R152: after the recording, a notice is asked for when its severity is enabled, and a FATAL error
halts an OPEN or CLOSED port when halt-on-fatal is enabled: the whole entry to HALTED (HaltDiscardsAndRefuses) is taken on
the state with the unit recorded (ReportIsRecorded) and the notice asked for (NoticeRequestAppendsOrCoalesces). Either order
of notice and halt gives the same (R120; log entry 17); that the halt stands in the same step is the model's choice (log
entry 24). -/
def Obligations.ReportNotifiesAndHalts : Prop :=
  ∀ (s : State) (r : Report), s.ecu.mask.getLsbD r.kind.number = false →
    let v := s.ecu.severityMap[r.kind.number]
    let o : CaptureOutcome := match s.ecu.record with
      | none => .filled
      | some old => if old.severity.code.toNat < v.code.toNat then .replaced else .notCaptured
    let notices := if s.ecu.notify.getLsbD v.code.toNat = true then (s.requestNotice v r.kind o).nq else s.nq
    let recorded : State := { s with ecu := { (s.report r).ecu with discarded := s.ecu.discarded }, nq := notices }
    (s.report r).nq = notices ∧
    (v = .fatal ∧ s.mu.haltOnFatal = true ∧ s.mu.port ≠ .halted → s.report r = recorded.enterHalted) ∧
    (v = .fatal ∧ s.mu.haltOnFatal = true ∧ s.mu.port ≠ .halted → (s.report r).mu.port = .halted) ∧
    (¬(v = .fatal ∧ s.mu.haltOnFatal = true ∧ s.mu.port ≠ .halted) →
      s.report r = recorded)

/-- R128: what an error notice request becomes. -/
def Obligations.NoticeRequestAppendsOrCoalesces : Prop :=
  (∀ (v : Severity) (m : Notice), Notice.hasSeverity v m = true ↔
    ∃ (k : ErrorKind) (o : CaptureOutcome) (n : BitVec 8), m = .error v k o n) ∧
  ∀ (s : State) (v : Severity) (k : ErrorKind) (o : CaptureOutcome),
    (s.link.state = .down → s.requestNotice v k o = s) ∧
    (∀ (before after : List Notice) (k' : ErrorKind) (o' : CaptureOutcome) (n : BitVec 8), s.link.state = .up →
      s.nq = before ++ .error v k' o' n :: after →
      (∀ m ∈ before ++ after, Notice.hasSeverity v m = false) →
      s.requestNotice v k o = { s with
        nq := before ++ .error v k' o' (if n = 255 then 255 else n + 1) :: after }) ∧
    (s.link.state = .up → (∀ m ∈ s.nq, Notice.hasSeverity v m = false) →
      s.requestNotice v k o = { s with nq := s.nq ++ [.error v k o 0] })

/-- R152, R52, R76, R48, R121: the entry to HALTED discards every record that is not ACTIVE and completes every entry that
waits, in allocation order. R34, R30, R31: the discarded records of the older generation are counted out of a drain, the
refused entries are not, and a drain that ends so places DONE in the slot that still holds the COMMIT (the bits of no field
of its word are zero, log entry 25). That discards come before completions shows nowhere (R52; log entry 17). -/
def Obligations.HaltDiscardsAndRefuses : Prop :=
  (∀ e : TrackerEntry, e.waits = true ↔ e.state = .ordered ∨ e.state = .ready ∨ e.state = .backoff) ∧
  ∀ s : State, s.Sound →
    let t := s.enterHalted
    let discarded := (s.pwq.filter (fun r => r.state != .active)).length
    let older := (s.pwq.filter (fun r => r.state != .active && r.generation != s.wd.generation)).length
    let halted : ManagementUnit := { s.mu with port := .halted }
    t.mu.port = .halted ∧ t.pwq = s.pwq.filter (fun r => r.state == .active) ∧
    t.ecu = { s.ecu with discarded := t.ecu.discarded } ∧
    t.ecu.discarded.toNat = min 65535 (s.ecu.discarded.toNat + discarded) ∧
    (s.link.state = .up → t.link = { s.link with
      posted := ⟨s.link.posted.outstanding, s.link.posted.awaiting + discarded⟩ }) ∧
    (s.link.state = .down → t.link = s.link) ∧
    (∀ i : Fin 24, s.rt.entries[i].waits = true → t.rt.entries[i] = { s.rt.entries[i] with
      state := .complete, status := some .refusedHalted, writesAhead := 0 }) ∧
    (∀ i : Fin 24, s.rt.entries[i].waits = false → t.rt.entries[i] = s.rt.entries[i]) ∧
    t.rt.completion = s.rt.completion ++ s.rt.order.filter (fun i => s.rt.entries[i].waits) ∧
    t.rt.order = s.rt.order ∧ t.rt.counter = s.rt.counter ∧ t.nq = s.nq ∧ t.portAnswer = s.portAnswer ∧
    t.lbe = { s.lbe with headTimer := none, entryTimers := Vector.replicate 24 none } ∧
    t.mu = { halted with slots := t.mu.slots, replies := t.mu.replies } ∧
    t.wd.staging = s.wd.staging ∧ t.wd.active = s.wd.active ∧ t.wd.generation = s.wd.generation ∧
    (s.wd.commit = .idle → t.wd = s.wd ∧ t.mu = halted) ∧
    (s.wd.commit = .draining →
      (older < s.wd.drain → t.wd = { s.wd with drain := s.wd.drain - older } ∧ t.mu = halted) ∧
      (1 ≤ s.wd.drain → older = s.wd.drain →
        t.wd = { s.wd with drain := 0, commit := .idle } ∧
        ((∀ k : Fin 2, s.mu.slots[k].holdsCommit = false) → t.mu = halted) ∧
        (∀ (k : Fin 2) (r : MgmtRequest), s.HeldCommitDrains → s.mu.slots[k] = .held r → r.kind = .mgmtCommand →
          r.address = 3 → t.mu = { halted with
            slots := s.mu.slots.set k (.reply r ⟨.done, [s.wd.generation.setWidth 32]⟩)
            replies := s.mu.replies ++ [k] }))) ∧
    t.pending = s.pending

/-- R48, R63, R169: the three notices of a record's retirement. -/
def Obligations.RetirementSendsNotices : Prop :=
  ∀ (s : State) (g : BitVec 8),
    let told := State.countOut g { s with
      link := if s.link.state = .up then
        { s.link with posted := ⟨s.link.posted.outstanding, s.link.posted.awaiting + 1⟩ } else s.link
      rt := { s.rt with entries := (s.retirement g).rt.entries } }
    s.retirement g = told ∧
    ∀ i : Fin 24, (s.retirement g).rt.entries[i] =
      if s.rt.entries[i].state = .ordered then { s.rt.entries[i] with
        writesAhead := s.rt.entries[i].writesAhead - 1
        state := if s.rt.entries[i].writesAhead ≤ 1 then .ready else .ordered }
      else s.rt.entries[i]

/-- R30, R31: an item of the older generation is counted out of a drain, and the last one ends it: the state is IDLE, and
DONE with the current generation stands in the slot that still holds the COMMIT (the bits of no field of its word are zero,
log entry 25). -/
def Obligations.DrainCountsOut : Prop :=
  (∀ q : Slot, q.holdsCommit = true ↔ ∃ r, q = .held r ∧ r.kind = .mgmtCommand ∧ r.address = 3) ∧
  ∀ (s : State) (g : BitVec 8),
    (s.wd.commit = .idle ∨ g = s.wd.generation → s.countOut g = s) ∧
    (s.wd.commit = .draining → g ≠ s.wd.generation → 1 < s.wd.drain →
      s.countOut g = { s with wd := { s.wd with drain := s.wd.drain - 1 } }) ∧
    (s.wd.commit = .draining → g ≠ s.wd.generation → s.wd.drain = 1 →
      let ended : State := { s with wd := { s.wd with drain := 0, commit := .idle } }
      ((∀ k : Fin 2, s.mu.slots[k].holdsCommit = false) → s.countOut g = ended) ∧
      (∀ (k : Fin 2) (r : MgmtRequest), s.HeldCommitDrains → s.mu.slots[k] = .held r → r.kind = .mgmtCommand →
        r.address = 3 → s.countOut g = ended.replied k r ⟨.done, [s.wd.generation.setWidth 32]⟩))

/-- R5, Table 1-2: where each lane arrangement takes each byte of a word and each enable, that it is its own inverse, and
the table's examples; code 3 is no arrangement and is left out. R66, R91, R133: a byte that is not enabled is set to zero.
R99: each lane's parity bit is its own byte's, with which the byte holds an even number of ones, and a lane that is not
enabled is not checked. -/
def Obligations.LanesAndParity : Prop :=
  (∀ (w : Word) (k : Fin 4),
    (swapWord .noSwap w).extractLsb' (8 * k.val) 8 = w.extractLsb' (8 * k.val) 8 ∧
    (swapWord .swap16 w).extractLsb' (8 * ((k.val + 2) % 4)) 8 = w.extractLsb' (8 * k.val) 8 ∧
    (swapWord .swap32 w).extractLsb' (8 * (3 - k.val)) 8 = w.extractLsb' (8 * k.val) 8) ∧
  (∀ (m : Nibble) (k : Fin 4),
    (swapEnables .noSwap m).getLsbD k.val = m.getLsbD k.val ∧
    (swapEnables .swap16 m).getLsbD ((k.val + 2) % 4) = m.getLsbD k.val ∧
    (swapEnables .swap32 m).getLsbD (3 - k.val) = m.getLsbD k.val) ∧
  (∀ (a : LaneSwap) (w : Word), a ≠ .invalid → swapWord a (swapWord a w) = w) ∧
  (∀ (a : LaneSwap) (m : Nibble), a ≠ .invalid → swapEnables a (swapEnables a m) = m) ∧
  swapWord .noSwap 0x11223344#32 = 0x11223344#32 ∧ swapWord .swap16 0x11223344#32 = 0x33441122#32 ∧
  swapWord .swap32 0x11223344#32 = 0x44332211#32 ∧ swapEnables .noSwap 3 = 3 ∧ swapEnables .swap16 3 = 12 ∧
  swapEnables .swap32 3 = 12 ∧
  (∀ (m : Nibble) (w : Word) (k : Fin 4),
    (maskWord m w).extractLsb' (8 * k.val) 8 = if m.getLsbD k.val then w.extractLsb' (8 * k.val) 8 else 0) ∧
  (∀ (w : Word) (k : Fin 4), laneParity w k.val = byteParity (w.extractLsb' (8 * k.val) 8)) ∧
  (∀ b : BitVec 8, ((List.range 8).countP (fun n => b.getLsbD n) + (byteParity b).toNat) % 2 = 0) ∧
  ∀ (enables : Nibble) (w : Word) (parity : Nibble), parityError enables w parity = true ↔
    ∃ l : Fin 4, enables.getLsbD l.val = true ∧ laneParity w l.val ≠ parity.getLsbD l.val
end

