-- ==== Sys2Proof/Laws/Search.lean ====
section
/-! SUPPORT. Laws/Search.lean: the first index that passes a test (R12, R26, R61), and the oldest element of an order that
passes one (R64, R141). -/

namespace Sys2Proof.Machine

theorem finRange_split {n : Nat} (i : Fin n) :
    ∃ before after : List (Fin n), List.finRange n = before ++ i :: after ∧ ∀ j ∈ before, j < i := by
  have h : (i : Nat) < (List.finRange n).length := by simp
  have h2 : (List.finRange n)[(i : Nat)] = i := by simp
  refine ⟨(List.finRange n).take i, (List.finRange n).drop (i + 1), ?_, ?_⟩
  · conv_lhs => rw [← List.take_append_drop i (List.finRange n), List.drop_eq_getElem_cons h, h2]
  · intro j hj
    obtain ⟨m, hm, rfl⟩ := List.mem_iff_getElem.mp hj
    rw [List.length_take] at hm
    rw [List.getElem_take, List.getElem_finRange]
    exact Fin.lt_def.mpr (by simpa using hm)

theorem findSome?_oldest {α β : Type} (f : α → Option β) (older newer : List α) (a : α) (b : β) (h : f a = some b)
    (hold : ∀ j ∈ older, f j = none) : (older ++ a :: newer).findSome? f = some b := by
  rw [List.findSome?_append, List.findSome?_eq_none_iff.mpr hold, List.findSome?_cons, h]
  rfl

theorem find?_oldest {α : Type} (p : α → Bool) (older newer : List α) (a : α) (h : p a = true)
    (hold : ∀ j ∈ older, p j = false) : (older ++ a :: newer).find? p = some a := by
  rw [List.find?_append, List.find?_eq_none.mpr (fun j hj => by simp [hold j hj]), List.find?_cons, h]
  rfl

theorem find?_oldest_iff {α : Type} (p : α → Bool) (l : List α) (a : α) :
    l.find? p = some a ↔ p a = true ∧ ∃ older newer, l = older ++ a :: newer ∧ ∀ j ∈ older, p j = false := by
  rw [List.find?_eq_some_iff_append]
  simp

theorem findSome?_finRange {n : Nat} {β : Type} (f : Fin n → Option β) (i : Fin n) (b : β) (h : f i = some b)
    (hlt : ∀ j, j < i → f j = none) : (List.finRange n).findSome? f = some b := by
  obtain ⟨l1, l2, h1, h2⟩ := finRange_split i
  rw [h1]
  exact findSome?_oldest f l1 l2 i b h (fun j hj => hlt j (h2 j hj))

theorem find?_finRange {n : Nat} (p : Fin n → Bool) (i : Fin n) (h : p i = true) (hlt : ∀ j, j < i → p j = false) :
    (List.finRange n).find? p = some i := by
  obtain ⟨l1, l2, h1, h2⟩ := finRange_split i
  rw [h1]
  exact find?_oldest p l1 l2 i h (fun j hj => hlt j (h2 j hj))

/-! ## The searches of the model -/

/-- R2: the link range of a window. -/
theorem WindowEntry.contains_iff (e : WindowEntry) (byte : Nat) : e.contains byte = true ↔ e.sizeCode.toNat ≤ 20 ∧
    e.linkBase.toNat * 4096 ≤ byte ∧ byte < e.linkBase.toNat * 4096 + 4096 * 2 ^ e.sizeCode.toNat := by
  unfold WindowEntry.contains windowSize baseByte
  split <;> rename_i h <;> split at h <;> simp_all

/-- R12: the match is the first entry, in index order, that is enabled and contains the first word. -/
theorem findMatch_eq_some (bank : Bank) (a : WordAddress) (i : Fin 16) (he : bank[i].enabled = true)
    (hc : bank[i].contains (wordByte a) = true)
    (hlt : ∀ j, j < i → bank[j].enabled = true → bank[j].contains (wordByte a) = false) : findMatch bank a = some i := by
  refine find?_finRange _ i (by rw [he, hc]; rfl) (fun j hj => ?_)
  cases h : bank[j].enabled
  · rfl
  · rw [hlt j hj h]; rfl

/-- R26: the first entry, in index order, that validation rejects. -/
theorem validate_eq_some (bank : Bank) (i : Fin 16) (why : TableReason) (h : bank[i].rejected = some why)
    (hlt : ∀ j, j < i → bank[j].rejected = none) : validate bank = some (i, why) :=
  findSome?_finRange _ i _ (by rw [h]; rfl) (fun j hj => by rw [hlt j hj]; rfl)

/-- R26: the bank passes when no entry is rejected. -/
theorem validate_eq_none (bank : Bank) : validate bank = none ↔ ∀ i : Fin 16, bank[i].rejected = none := by
  simp [validate]

/-- R41, R55: the offer of the head. -/
theorem State.headOffered_iff (s : State) : s.headOffered = true ↔ s.HeadOffered := by
  unfold State.headOffered State.HeadOffered State.headIs
  split
  next h => simp [h]
  next r rest h => simp [h, and_comm]

/-- R64, R80: the offer of the tracker. -/
theorem State.readyOffered_eq_some_iff (s : State) (i : Fin 24) : s.readyOffered = some i ↔ s.ReadyOffered i := by
  unfold State.readyOffered State.ReadyOffered
  cases s.mu.resetPending
  · rw [if_neg (by simp), find?_oldest_iff]
    simp
  · simp

/-- R64: the tracker offers nothing exactly when no entry is the oldest READY one. -/
theorem State.readyOffered_eq_none_iff (s : State) : s.readyOffered = none ↔ ∀ i : Fin 24, ¬s.ReadyOffered i := by
  rw [Option.eq_none_iff_forall_not_mem]
  exact forall_congr' fun i => not_congr (s.readyOffered_eq_some_iff i)

end Sys2Proof.Machine
end

