-- ==== Sys2Proof/Laws/Requests.lean ====
section
/-! SUPPORT. Laws/Requests.lean: the execution of the oldest WAITING slot (R141, R144) and the reply it gets (R142). -/

namespace Sys2Proof.Machine

/-- R141. -/
theorem State.Executes.nextWaiting {s : State} {k : Fin 2} {r : MgmtRequest} (h : s.Executes k r) :
    s.nextWaiting = some (k, r) := by
  obtain ⟨h1, h2, older, newer, h3, h4⟩ := h
  simp only [State.nextWaiting, h1, h3]
  exact findSome?_oldest _ older newer k (k, r) (by rw [h2]; rfl) (fun j hj => by rw [h4 j hj]; rfl)

/-- R141, R144: what a management command does to the request it executes. -/
theorem State.Executes.executeIf {s : State} {k : Fin 2} {r : MgmtRequest} (h : s.Executes k r)
    (sel : MgmtRequest → Bool) (body : Fin 2 → MgmtRequest → State → State) :
    s.executeIf sel body = if sel r then (if r.manager then body k r s else s.denyRequest k r) else s := by
  simp only [State.executeIf, h.nextWaiting]

/-- R142. -/
theorem State.placeReply_waiting {s : State} {k : Fin 2} {r : MgmtRequest} (m : MgmtReply)
    (h : s.mu.slots[k] = .waiting r) : s.placeReply k m = s.replied k r m := by
  simp only [State.placeReply, State.replied, h, Slot.answered]

/-- R31, R142. -/
theorem State.placeReply_held {s : State} {k : Fin 2} {r : MgmtRequest} (m : MgmtReply) (h : s.mu.slots[k] = .held r) :
    s.placeReply k m = s.replied k r m := by
  simp only [State.placeReply, State.replied, h, Slot.answered]

/-- Table 8-7: the command that the executed request names. -/
theorem State.ExecutesCommand.command {s : State} {k : Fin 2} {r : MgmtRequest} {c : WordAddress}
    (h : s.ExecutesCommand k r c) : r.command = CommandCode.ofAddress c := by
  obtain ⟨_, h2, h3, _⟩ := h
  simp only [MgmtRequest.command, h2, h3]

/-- R155: codes other than 1 to 6 name no command. -/
theorem CommandCode.ofAddress_eq_none (c : WordAddress) (h : c = 0 ∨ 6 < c.toNat) : CommandCode.ofAddress c = none := by
  unfold CommandCode.ofAddress
  rcases h with rfl | h
  · rfl
  · have hne : ∀ n : Nat, n ≤ 6 → c ≠ BitVec.ofNat 30 n := by
      rintro n hn rfl
      rw [BitVec.toNat_ofNat] at h
      omega
    have h1 : c ≠ 1 := hne 1 (by omega)
    have h2 : c ≠ 2 := hne 2 (by omega)
    have h3 : c ≠ 3 := hne 3 (by omega)
    have h4 : c ≠ 4 := hne 4 (by omega)
    have h5 : c ≠ 5 := hne 5 (by omega)
    have h6 : c ≠ 6 := hne 6 (by omega)
    rw [if_neg h1, if_neg h2, if_neg h3, if_neg h4, if_neg h5, if_neg h6]

end Sys2Proof.Machine
end

