-- ==== Sys2Proof/Laws/State.lean ====
section
/-! SUPPORT. Laws/State.lean: what each shared operation leaves alone, one lemma for each operation with one equation for
each field of the state, tagged simp, so that a proof sees an operation only through the fields it changes. -/

namespace Sys2Proof.Machine

/-! ## Credits -/

@[simp] theorem LinkPort.setPool_state (l : LinkPort) (p : Pool) (c : CreditPool) : (l.setPool p c).state = l.state := by
  cases p <;> rfl

@[simp] theorem LinkPort.setPool_sessionStart (l : LinkPort) (p : Pool) (c : CreditPool) :
    (l.setPool p c).sessionStart = l.sessionStart := by cases p <;> rfl

@[simp] theorem LinkPort.setPool_skip (l : LinkPort) (p : Pool) (c : CreditPool) : (l.setPool p c).skip = l.skip := by
  cases p <;> rfl

@[simp] theorem LinkPort.setPool_seq (l : LinkPort) (p : Pool) (c : CreditPool) : (l.setPool p c).seq = l.seq := by
  cases p <;> rfl

@[simp] theorem LinkPort.setPool_tx (l : LinkPort) (p : Pool) (c : CreditPool) : (l.setPool p c).tx = l.tx := by
  cases p <;> rfl

@[simp] theorem LinkPort.pool_setPool (l : LinkPort) (p q : Pool) (c : CreditPool) :
    (l.setPool p c).pool q = if q = p then c else l.pool q := by
  cases p <;> cases q <;> rfl

@[simp] theorem State.release_frame (p : Pool) (s : State) :
    (s.release p).wd = s.wd ∧ (s.release p).pwq = s.pwq ∧ (s.release p).rt = s.rt ∧ (s.release p).lbe = s.lbe ∧
    (s.release p).ecu = s.ecu ∧ (s.release p).nq = s.nq ∧ (s.release p).mu = s.mu ∧
    (s.release p).portAnswer = s.portAnswer ∧ (s.release p).pending = s.pending ∧
    (s.release p).link.state = s.link.state ∧ (s.release p).link.sessionStart = s.link.sessionStart ∧
    (s.release p).link.skip = s.link.skip ∧ (s.release p).link.seq = s.link.seq ∧ (s.release p).link.tx = s.link.tx := by
  unfold State.release; (repeat' split) <;> simp

@[simp] theorem State.consume_frame (p : Pool) (s : State) :
    (s.consume p).wd = s.wd ∧ (s.consume p).pwq = s.pwq ∧ (s.consume p).rt = s.rt ∧ (s.consume p).lbe = s.lbe ∧
    (s.consume p).ecu = s.ecu ∧ (s.consume p).nq = s.nq ∧ (s.consume p).mu = s.mu ∧
    (s.consume p).portAnswer = s.portAnswer ∧ (s.consume p).pending = s.pending ∧
    (s.consume p).link.state = s.link.state ∧ (s.consume p).link.sessionStart = s.link.sessionStart ∧
    (s.consume p).link.skip = s.link.skip ∧ (s.consume p).link.seq = s.link.seq ∧ (s.consume p).link.tx = s.link.tx := by
  simp [State.consume]

/-! ## Replies and the drain -/

@[simp] theorem State.placeReply_frame (k : Fin 2) (m : MgmtReply) (s : State) :
    (s.placeReply k m).link = s.link ∧ (s.placeReply k m).wd = s.wd ∧ (s.placeReply k m).pwq = s.pwq ∧
    (s.placeReply k m).rt = s.rt ∧ (s.placeReply k m).lbe = s.lbe ∧ (s.placeReply k m).ecu = s.ecu ∧
    (s.placeReply k m).nq = s.nq ∧ (s.placeReply k m).portAnswer = s.portAnswer ∧
    (s.placeReply k m).pending = s.pending ∧ (s.placeReply k m).mu.arrivals = s.mu.arrivals ∧
    (s.placeReply k m).mu.resetPending = s.mu.resetPending ∧
    (s.placeReply k m).mu.accessTimeout = s.mu.accessTimeout ∧ (s.placeReply k m).mu.retryLimit = s.mu.retryLimit ∧
    (s.placeReply k m).mu.retryBackoff = s.mu.retryBackoff ∧ (s.placeReply k m).mu.fairness = s.mu.fairness ∧
    (s.placeReply k m).mu.haltOnFatal = s.mu.haltOnFatal ∧ (s.placeReply k m).mu.managers = s.mu.managers ∧
    (s.placeReply k m).mu.portEnable = s.mu.portEnable ∧ (s.placeReply k m).mu.portBase = s.mu.portBase ∧
    (s.placeReply k m).mu.port = s.mu.port := by
  unfold State.placeReply
  and_intros <;> rfl

@[simp] theorem State.placeDone_frame (s : State) :
    s.placeDone.link = s.link ∧ s.placeDone.wd = s.wd ∧ s.placeDone.pwq = s.pwq ∧ s.placeDone.rt = s.rt ∧
    s.placeDone.lbe = s.lbe ∧ s.placeDone.ecu = s.ecu ∧ s.placeDone.nq = s.nq ∧
    s.placeDone.portAnswer = s.portAnswer ∧ s.placeDone.pending = s.pending ∧
    s.placeDone.mu.arrivals = s.mu.arrivals ∧ s.placeDone.mu.resetPending = s.mu.resetPending ∧
    s.placeDone.mu.accessTimeout = s.mu.accessTimeout ∧ s.placeDone.mu.retryLimit = s.mu.retryLimit ∧
    s.placeDone.mu.retryBackoff = s.mu.retryBackoff ∧ s.placeDone.mu.fairness = s.mu.fairness ∧
    s.placeDone.mu.haltOnFatal = s.mu.haltOnFatal ∧ s.placeDone.mu.managers = s.mu.managers ∧
    s.placeDone.mu.portEnable = s.mu.portEnable ∧ s.placeDone.mu.portBase = s.mu.portBase ∧
    s.placeDone.mu.port = s.mu.port := by
  unfold State.placeDone; (repeat' split) <;> simp

@[simp] theorem State.countOut_frame (g : BitVec 8) (s : State) :
    (s.countOut g).link = s.link ∧ (s.countOut g).pwq = s.pwq ∧ (s.countOut g).rt = s.rt ∧
    (s.countOut g).lbe = s.lbe ∧ (s.countOut g).ecu = s.ecu ∧ (s.countOut g).nq = s.nq ∧
    (s.countOut g).portAnswer = s.portAnswer ∧ (s.countOut g).pending = s.pending ∧
    (s.countOut g).wd.staging = s.wd.staging ∧ (s.countOut g).wd.active = s.wd.active ∧
    (s.countOut g).wd.generation = s.wd.generation ∧ (s.countOut g).mu.arrivals = s.mu.arrivals ∧
    (s.countOut g).mu.resetPending = s.mu.resetPending ∧ (s.countOut g).mu.accessTimeout = s.mu.accessTimeout ∧
    (s.countOut g).mu.retryLimit = s.mu.retryLimit ∧ (s.countOut g).mu.retryBackoff = s.mu.retryBackoff ∧
    (s.countOut g).mu.fairness = s.mu.fairness ∧ (s.countOut g).mu.haltOnFatal = s.mu.haltOnFatal ∧
    (s.countOut g).mu.managers = s.mu.managers ∧ (s.countOut g).mu.portEnable = s.mu.portEnable ∧
    (s.countOut g).mu.portBase = s.mu.portBase ∧ (s.countOut g).mu.port = s.mu.port := by
  unfold State.countOut; (repeat' split) <;> simp

/-! ## Retirement -/

@[simp] theorem State.orderingNotice_frame (s : State) :
    s.orderingNotice.link = s.link ∧ s.orderingNotice.wd = s.wd ∧ s.orderingNotice.pwq = s.pwq ∧
    s.orderingNotice.lbe = s.lbe ∧ s.orderingNotice.ecu = s.ecu ∧ s.orderingNotice.nq = s.nq ∧
    s.orderingNotice.mu = s.mu ∧ s.orderingNotice.portAnswer = s.portAnswer ∧ s.orderingNotice.pending = s.pending ∧
    s.orderingNotice.rt.counter = s.rt.counter ∧ s.orderingNotice.rt.order = s.rt.order ∧
    s.orderingNotice.rt.completion = s.rt.completion := by
  unfold State.orderingNotice
  and_intros <;> rfl

@[simp] theorem State.retirement_frame (g : BitVec 8) (s : State) :
    (s.retirement g).pwq = s.pwq ∧ (s.retirement g).lbe = s.lbe ∧ (s.retirement g).ecu = s.ecu ∧
    (s.retirement g).nq = s.nq ∧ (s.retirement g).portAnswer = s.portAnswer ∧ (s.retirement g).pending = s.pending ∧
    (s.retirement g).rt.counter = s.rt.counter ∧ (s.retirement g).rt.order = s.rt.order ∧
    (s.retirement g).rt.completion = s.rt.completion ∧ (s.retirement g).wd.staging = s.wd.staging ∧
    (s.retirement g).wd.active = s.wd.active ∧ (s.retirement g).wd.generation = s.wd.generation ∧
    (s.retirement g).mu.arrivals = s.mu.arrivals ∧ (s.retirement g).mu.resetPending = s.mu.resetPending ∧
    (s.retirement g).mu.accessTimeout = s.mu.accessTimeout ∧ (s.retirement g).mu.retryLimit = s.mu.retryLimit ∧
    (s.retirement g).mu.retryBackoff = s.mu.retryBackoff ∧ (s.retirement g).mu.fairness = s.mu.fairness ∧
    (s.retirement g).mu.haltOnFatal = s.mu.haltOnFatal ∧ (s.retirement g).mu.managers = s.mu.managers ∧
    (s.retirement g).mu.portEnable = s.mu.portEnable ∧ (s.retirement g).mu.portBase = s.mu.portBase ∧
    (s.retirement g).mu.port = s.mu.port ∧ (s.retirement g).link.state = s.link.state ∧
    (s.retirement g).link.sessionStart = s.link.sessionStart ∧ (s.retirement g).link.skip = s.link.skip ∧
    (s.retirement g).link.seq = s.link.seq ∧ (s.retirement g).link.tx = s.link.tx := by
  simp [State.retirement]

@[simp] theorem State.countDiscard_frame (s : State) :
    s.countDiscard.link = s.link ∧ s.countDiscard.wd = s.wd ∧ s.countDiscard.pwq = s.pwq ∧ s.countDiscard.rt = s.rt ∧
    s.countDiscard.lbe = s.lbe ∧ s.countDiscard.nq = s.nq ∧ s.countDiscard.mu = s.mu ∧
    s.countDiscard.portAnswer = s.portAnswer ∧ s.countDiscard.pending = s.pending ∧
    s.countDiscard.ecu.mask = s.ecu.mask ∧ s.countDiscard.ecu.severityMap = s.ecu.severityMap ∧
    s.countDiscard.ecu.notify = s.ecu.notify ∧ s.countDiscard.ecu.record = s.ecu.record ∧
    s.countDiscard.ecu.worst = s.ecu.worst ∧ s.countDiscard.ecu.stamp = s.ecu.stamp ∧
    s.countDiscard.ecu.nextErrors = s.ecu.nextErrors ∧ s.countDiscard.ecu.overflow = s.ecu.overflow := by
  unfold State.countDiscard
  and_intros <;> rfl

/-- R52, R121: a discarded record retires and is counted. -/
@[simp] theorem State.discardRecord_frame (r : WriteRecord) (s : State) :
    (s.discardRecord r).pwq = s.pwq ∧ (s.discardRecord r).lbe = s.lbe ∧ (s.discardRecord r).nq = s.nq ∧
    (s.discardRecord r).portAnswer = s.portAnswer ∧ (s.discardRecord r).pending = s.pending ∧
    (s.discardRecord r).rt.counter = s.rt.counter ∧ (s.discardRecord r).rt.order = s.rt.order ∧
    (s.discardRecord r).rt.completion = s.rt.completion ∧ (s.discardRecord r).wd.staging = s.wd.staging ∧
    (s.discardRecord r).wd.active = s.wd.active ∧ (s.discardRecord r).wd.generation = s.wd.generation ∧
    (s.discardRecord r).mu.arrivals = s.mu.arrivals ∧ (s.discardRecord r).mu.resetPending = s.mu.resetPending ∧
    (s.discardRecord r).mu.accessTimeout = s.mu.accessTimeout ∧ (s.discardRecord r).mu.retryLimit = s.mu.retryLimit ∧
    (s.discardRecord r).mu.retryBackoff = s.mu.retryBackoff ∧ (s.discardRecord r).mu.fairness = s.mu.fairness ∧
    (s.discardRecord r).mu.haltOnFatal = s.mu.haltOnFatal ∧ (s.discardRecord r).mu.managers = s.mu.managers ∧
    (s.discardRecord r).mu.portEnable = s.mu.portEnable ∧ (s.discardRecord r).mu.portBase = s.mu.portBase ∧
    (s.discardRecord r).mu.port = s.mu.port ∧ (s.discardRecord r).link.state = s.link.state ∧
    (s.discardRecord r).link.sessionStart = s.link.sessionStart ∧ (s.discardRecord r).link.skip = s.link.skip ∧
    (s.discardRecord r).link.seq = s.link.seq ∧ (s.discardRecord r).link.tx = s.link.tx ∧
    (s.discardRecord r).ecu.mask = s.ecu.mask ∧ (s.discardRecord r).ecu.severityMap = s.ecu.severityMap ∧
    (s.discardRecord r).ecu.notify = s.ecu.notify ∧ (s.discardRecord r).ecu.record = s.ecu.record ∧
    (s.discardRecord r).ecu.worst = s.ecu.worst ∧ (s.discardRecord r).ecu.stamp = s.ecu.stamp ∧
    (s.discardRecord r).ecu.nextErrors = s.ecu.nextErrors ∧ (s.discardRecord r).ecu.overflow = s.ecu.overflow := by
  simp [State.discardRecord]

/-- A field that no discarded record changes is unchanged by all of them. -/
theorem State.foldl_discardRecord {α : Type} (f : State → α) (h : ∀ s r, f (State.discardRecord s r) = f s)
    (rs : List WriteRecord) (s : State) : f (rs.foldl State.discardRecord s) = f s := by
  induction rs generalizing s with
  | nil => rfl
  | cons r rs ih => rw [List.foldl_cons, ih, h]

/-! ## The entry to HALTED -/

@[simp] theorem State.discardWaiting_frame (s : State) :
    s.discardWaiting.nq = s.nq ∧ s.discardWaiting.portAnswer = s.portAnswer ∧ s.discardWaiting.pending = s.pending ∧
    s.discardWaiting.rt.counter = s.rt.counter ∧ s.discardWaiting.rt.order = s.rt.order ∧
    s.discardWaiting.rt.completion = s.rt.completion ∧ s.discardWaiting.wd.staging = s.wd.staging ∧
    s.discardWaiting.wd.active = s.wd.active ∧ s.discardWaiting.wd.generation = s.wd.generation ∧
    s.discardWaiting.mu.arrivals = s.mu.arrivals ∧ s.discardWaiting.mu.resetPending = s.mu.resetPending ∧
    s.discardWaiting.mu.accessTimeout = s.mu.accessTimeout ∧ s.discardWaiting.mu.retryLimit = s.mu.retryLimit ∧
    s.discardWaiting.mu.retryBackoff = s.mu.retryBackoff ∧ s.discardWaiting.mu.fairness = s.mu.fairness ∧
    s.discardWaiting.mu.haltOnFatal = s.mu.haltOnFatal ∧ s.discardWaiting.mu.managers = s.mu.managers ∧
    s.discardWaiting.mu.portEnable = s.mu.portEnable ∧ s.discardWaiting.mu.portBase = s.mu.portBase ∧
    s.discardWaiting.mu.port = s.mu.port ∧ s.discardWaiting.link.state = s.link.state ∧
    s.discardWaiting.link.sessionStart = s.link.sessionStart ∧ s.discardWaiting.link.skip = s.link.skip ∧
    s.discardWaiting.link.seq = s.link.seq ∧ s.discardWaiting.link.tx = s.link.tx ∧
    s.discardWaiting.ecu.mask = s.ecu.mask ∧ s.discardWaiting.ecu.severityMap = s.ecu.severityMap ∧
    s.discardWaiting.ecu.notify = s.ecu.notify ∧ s.discardWaiting.ecu.record = s.ecu.record ∧
    s.discardWaiting.ecu.worst = s.ecu.worst ∧ s.discardWaiting.ecu.stamp = s.ecu.stamp ∧
    s.discardWaiting.ecu.nextErrors = s.ecu.nextErrors ∧ s.discardWaiting.ecu.overflow = s.ecu.overflow := by
  and_intros
  · exact State.foldl_discardRecord (fun s => s.nq) (by simp) _ _
  · exact State.foldl_discardRecord (fun s => s.portAnswer) (by simp) _ _
  · exact State.foldl_discardRecord (fun s => s.pending) (by simp) _ _
  · exact State.foldl_discardRecord (fun s => s.rt.counter) (by simp) _ _
  · exact State.foldl_discardRecord (fun s => s.rt.order) (by simp) _ _
  · exact State.foldl_discardRecord (fun s => s.rt.completion) (by simp) _ _
  · exact State.foldl_discardRecord (fun s => s.wd.staging) (by simp) _ _
  · exact State.foldl_discardRecord (fun s => s.wd.active) (by simp) _ _
  · exact State.foldl_discardRecord (fun s => s.wd.generation) (by simp) _ _
  · exact State.foldl_discardRecord (fun s => s.mu.arrivals) (by simp) _ _
  · exact State.foldl_discardRecord (fun s => s.mu.resetPending) (by simp) _ _
  · exact State.foldl_discardRecord (fun s => s.mu.accessTimeout) (by simp) _ _
  · exact State.foldl_discardRecord (fun s => s.mu.retryLimit) (by simp) _ _
  · exact State.foldl_discardRecord (fun s => s.mu.retryBackoff) (by simp) _ _
  · exact State.foldl_discardRecord (fun s => s.mu.fairness) (by simp) _ _
  · exact State.foldl_discardRecord (fun s => s.mu.haltOnFatal) (by simp) _ _
  · exact State.foldl_discardRecord (fun s => s.mu.managers) (by simp) _ _
  · exact State.foldl_discardRecord (fun s => s.mu.portEnable) (by simp) _ _
  · exact State.foldl_discardRecord (fun s => s.mu.portBase) (by simp) _ _
  · exact State.foldl_discardRecord (fun s => s.mu.port) (by simp) _ _
  · exact State.foldl_discardRecord (fun s => s.link.state) (by simp) _ _
  · exact State.foldl_discardRecord (fun s => s.link.sessionStart) (by simp) _ _
  · exact State.foldl_discardRecord (fun s => s.link.skip) (by simp) _ _
  · exact State.foldl_discardRecord (fun s => s.link.seq) (by simp) _ _
  · exact State.foldl_discardRecord (fun s => s.link.tx) (by simp) _ _
  · exact State.foldl_discardRecord (fun s => s.ecu.mask) (by simp) _ _
  · exact State.foldl_discardRecord (fun s => s.ecu.severityMap) (by simp) _ _
  · exact State.foldl_discardRecord (fun s => s.ecu.notify) (by simp) _ _
  · exact State.foldl_discardRecord (fun s => s.ecu.record) (by simp) _ _
  · exact State.foldl_discardRecord (fun s => s.ecu.worst) (by simp) _ _
  · exact State.foldl_discardRecord (fun s => s.ecu.stamp) (by simp) _ _
  · exact State.foldl_discardRecord (fun s => s.ecu.nextErrors) (by simp) _ _
  · exact State.foldl_discardRecord (fun s => s.ecu.overflow) (by simp) _ _

/-- R52: only an ACTIVE record is left. -/
@[simp] theorem State.discardWaiting_pwq (s : State) :
    (State.discardWaiting s).pwq = s.pwq.filter fun r => r.state == .active := by
  rw [State.discardWaiting, State.foldl_discardRecord (fun s => s.pwq) (by simp)]

/-- R52, R96: the interval of a head in BACKOFF is abandoned. -/
@[simp] theorem State.discardWaiting_lbe (s : State) : (State.discardWaiting s).lbe = { s.lbe with
    headTimer := if s.pwq.any fun r => r.state == .backoff then none else s.lbe.headTimer } := by
  rw [State.discardWaiting, State.foldl_discardRecord (fun s => s.lbe) (by simp)]

@[simp] theorem State.completeWaiting_frame (s : State) :
    s.completeWaiting.link = s.link ∧ s.completeWaiting.wd = s.wd ∧ s.completeWaiting.pwq = s.pwq ∧
    s.completeWaiting.ecu = s.ecu ∧ s.completeWaiting.nq = s.nq ∧ s.completeWaiting.mu = s.mu ∧
    s.completeWaiting.portAnswer = s.portAnswer ∧ s.completeWaiting.pending = s.pending ∧
    s.completeWaiting.rt.counter = s.rt.counter ∧ s.completeWaiting.rt.order = s.rt.order := by
  unfold State.completeWaiting
  and_intros <;> rfl

@[simp] theorem State.enterHalted_frame (s : State) :
    s.enterHalted.nq = s.nq ∧ s.enterHalted.portAnswer = s.portAnswer ∧ s.enterHalted.pending = s.pending ∧
    s.enterHalted.rt.counter = s.rt.counter ∧ s.enterHalted.rt.order = s.rt.order ∧
    s.enterHalted.wd.staging = s.wd.staging ∧ s.enterHalted.wd.active = s.wd.active ∧
    s.enterHalted.wd.generation = s.wd.generation ∧ s.enterHalted.mu.arrivals = s.mu.arrivals ∧
    s.enterHalted.mu.resetPending = s.mu.resetPending ∧ s.enterHalted.mu.accessTimeout = s.mu.accessTimeout ∧
    s.enterHalted.mu.retryLimit = s.mu.retryLimit ∧ s.enterHalted.mu.retryBackoff = s.mu.retryBackoff ∧
    s.enterHalted.mu.fairness = s.mu.fairness ∧ s.enterHalted.mu.haltOnFatal = s.mu.haltOnFatal ∧
    s.enterHalted.mu.managers = s.mu.managers ∧ s.enterHalted.mu.portEnable = s.mu.portEnable ∧
    s.enterHalted.mu.portBase = s.mu.portBase ∧ s.enterHalted.link.state = s.link.state ∧
    s.enterHalted.link.sessionStart = s.link.sessionStart ∧ s.enterHalted.link.skip = s.link.skip ∧
    s.enterHalted.link.seq = s.link.seq ∧ s.enterHalted.link.tx = s.link.tx ∧ s.enterHalted.ecu.mask = s.ecu.mask ∧
    s.enterHalted.ecu.severityMap = s.ecu.severityMap ∧ s.enterHalted.ecu.notify = s.ecu.notify ∧
    s.enterHalted.ecu.record = s.ecu.record ∧ s.enterHalted.ecu.worst = s.ecu.worst ∧
    s.enterHalted.ecu.stamp = s.ecu.stamp ∧ s.enterHalted.ecu.nextErrors = s.ecu.nextErrors ∧
    s.enterHalted.ecu.overflow = s.ecu.overflow := by
  simp [State.enterHalted]

/-- R152. -/
@[simp] theorem State.enterHalted_mu_port (s : State) : (State.enterHalted s).mu.port = .halted := by
  simp [State.enterHalted]

@[simp] theorem State.fatalRecorded_frame (s : State) :
    s.fatalRecorded.nq = s.nq ∧ s.fatalRecorded.portAnswer = s.portAnswer ∧ s.fatalRecorded.pending = s.pending ∧
    s.fatalRecorded.rt.counter = s.rt.counter ∧ s.fatalRecorded.rt.order = s.rt.order ∧
    s.fatalRecorded.wd.staging = s.wd.staging ∧ s.fatalRecorded.wd.active = s.wd.active ∧
    s.fatalRecorded.wd.generation = s.wd.generation ∧ s.fatalRecorded.mu.arrivals = s.mu.arrivals ∧
    s.fatalRecorded.mu.resetPending = s.mu.resetPending ∧ s.fatalRecorded.mu.accessTimeout = s.mu.accessTimeout ∧
    s.fatalRecorded.mu.retryLimit = s.mu.retryLimit ∧ s.fatalRecorded.mu.retryBackoff = s.mu.retryBackoff ∧
    s.fatalRecorded.mu.fairness = s.mu.fairness ∧ s.fatalRecorded.mu.haltOnFatal = s.mu.haltOnFatal ∧
    s.fatalRecorded.mu.managers = s.mu.managers ∧ s.fatalRecorded.mu.portEnable = s.mu.portEnable ∧
    s.fatalRecorded.mu.portBase = s.mu.portBase ∧ s.fatalRecorded.link.state = s.link.state ∧
    s.fatalRecorded.link.sessionStart = s.link.sessionStart ∧ s.fatalRecorded.link.skip = s.link.skip ∧
    s.fatalRecorded.link.seq = s.link.seq ∧ s.fatalRecorded.link.tx = s.link.tx ∧
    s.fatalRecorded.ecu.mask = s.ecu.mask ∧ s.fatalRecorded.ecu.severityMap = s.ecu.severityMap ∧
    s.fatalRecorded.ecu.notify = s.ecu.notify ∧ s.fatalRecorded.ecu.record = s.ecu.record ∧
    s.fatalRecorded.ecu.worst = s.ecu.worst ∧ s.fatalRecorded.ecu.stamp = s.ecu.stamp ∧
    s.fatalRecorded.ecu.nextErrors = s.ecu.nextErrors ∧ s.fatalRecorded.ecu.overflow = s.ecu.overflow := by
  unfold State.fatalRecorded; split <;> simp

/-! ## Reports -/

@[simp] theorem State.requestNotice_frame (v : Severity) (k : ErrorKind) (o : CaptureOutcome) (s : State) :
    (s.requestNotice v k o).link = s.link ∧ (s.requestNotice v k o).wd = s.wd ∧ (s.requestNotice v k o).pwq = s.pwq ∧
    (s.requestNotice v k o).rt = s.rt ∧ (s.requestNotice v k o).lbe = s.lbe ∧ (s.requestNotice v k o).ecu = s.ecu ∧
    (s.requestNotice v k o).mu = s.mu ∧ (s.requestNotice v k o).portAnswer = s.portAnswer ∧
    (s.requestNotice v k o).pending = s.pending := by
  unfold State.requestNotice; (repeat' split) <;> simp

@[simp] theorem State.afterRecording_frame (v : Severity) (k : ErrorKind) (o : CaptureOutcome) (s : State) :
    (s.afterRecording v k o).portAnswer = s.portAnswer ∧ (s.afterRecording v k o).pending = s.pending ∧
    (s.afterRecording v k o).rt.counter = s.rt.counter ∧ (s.afterRecording v k o).rt.order = s.rt.order ∧
    (s.afterRecording v k o).wd.staging = s.wd.staging ∧ (s.afterRecording v k o).wd.active = s.wd.active ∧
    (s.afterRecording v k o).wd.generation = s.wd.generation ∧ (s.afterRecording v k o).mu.arrivals = s.mu.arrivals ∧
    (s.afterRecording v k o).mu.resetPending = s.mu.resetPending ∧
    (s.afterRecording v k o).mu.accessTimeout = s.mu.accessTimeout ∧
    (s.afterRecording v k o).mu.retryLimit = s.mu.retryLimit ∧
    (s.afterRecording v k o).mu.retryBackoff = s.mu.retryBackoff ∧
    (s.afterRecording v k o).mu.fairness = s.mu.fairness ∧
    (s.afterRecording v k o).mu.haltOnFatal = s.mu.haltOnFatal ∧
    (s.afterRecording v k o).mu.managers = s.mu.managers ∧ (s.afterRecording v k o).mu.portEnable = s.mu.portEnable ∧
    (s.afterRecording v k o).mu.portBase = s.mu.portBase ∧ (s.afterRecording v k o).link.state = s.link.state ∧
    (s.afterRecording v k o).link.sessionStart = s.link.sessionStart ∧
    (s.afterRecording v k o).link.skip = s.link.skip ∧ (s.afterRecording v k o).link.seq = s.link.seq ∧
    (s.afterRecording v k o).link.tx = s.link.tx ∧ (s.afterRecording v k o).ecu.mask = s.ecu.mask ∧
    (s.afterRecording v k o).ecu.severityMap = s.ecu.severityMap ∧
    (s.afterRecording v k o).ecu.notify = s.ecu.notify ∧ (s.afterRecording v k o).ecu.record = s.ecu.record ∧
    (s.afterRecording v k o).ecu.worst = s.ecu.worst ∧ (s.afterRecording v k o).ecu.stamp = s.ecu.stamp ∧
    (s.afterRecording v k o).ecu.nextErrors = s.ecu.nextErrors ∧
    (s.afterRecording v k o).ecu.overflow = s.ecu.overflow := by
  simp only [State.afterRecording]; (repeat' split) <;> simp

@[simp] theorem State.report_frame (r : Report) (s : State) :
    (s.report r).portAnswer = s.portAnswer ∧ (s.report r).pending = s.pending ∧
    (s.report r).rt.counter = s.rt.counter ∧ (s.report r).rt.order = s.rt.order ∧
    (s.report r).wd.staging = s.wd.staging ∧ (s.report r).wd.active = s.wd.active ∧
    (s.report r).wd.generation = s.wd.generation ∧ (s.report r).mu.arrivals = s.mu.arrivals ∧
    (s.report r).mu.resetPending = s.mu.resetPending ∧ (s.report r).mu.accessTimeout = s.mu.accessTimeout ∧
    (s.report r).mu.retryLimit = s.mu.retryLimit ∧ (s.report r).mu.retryBackoff = s.mu.retryBackoff ∧
    (s.report r).mu.fairness = s.mu.fairness ∧ (s.report r).mu.haltOnFatal = s.mu.haltOnFatal ∧
    (s.report r).mu.managers = s.mu.managers ∧ (s.report r).mu.portEnable = s.mu.portEnable ∧
    (s.report r).mu.portBase = s.mu.portBase ∧ (s.report r).link.state = s.link.state ∧
    (s.report r).link.sessionStart = s.link.sessionStart ∧ (s.report r).link.skip = s.link.skip ∧
    (s.report r).link.seq = s.link.seq ∧ (s.report r).link.tx = s.link.tx := by
  simp only [State.report]; split <;> simp

/-! ## Tracker entries -/

@[simp] theorem State.completeEntry_frame (i : Fin 24) (st : Status) (s : State) :
    (s.completeEntry i st).link = s.link ∧ (s.completeEntry i st).wd = s.wd ∧ (s.completeEntry i st).pwq = s.pwq ∧
    (s.completeEntry i st).lbe = s.lbe ∧ (s.completeEntry i st).ecu = s.ecu ∧ (s.completeEntry i st).nq = s.nq ∧
    (s.completeEntry i st).mu = s.mu ∧ (s.completeEntry i st).portAnswer = s.portAnswer ∧
    (s.completeEntry i st).pending = s.pending := by
  unfold State.completeEntry
  and_intros <;> rfl

@[simp] theorem State.freeEntry_frame (i : Fin 24) (s : State) :
    (s.freeEntry i).pwq = s.pwq ∧ (s.freeEntry i).lbe = s.lbe ∧ (s.freeEntry i).ecu = s.ecu ∧
    (s.freeEntry i).nq = s.nq ∧ (s.freeEntry i).portAnswer = s.portAnswer ∧ (s.freeEntry i).pending = s.pending ∧
    (s.freeEntry i).wd.staging = s.wd.staging ∧ (s.freeEntry i).wd.active = s.wd.active ∧
    (s.freeEntry i).wd.generation = s.wd.generation ∧ (s.freeEntry i).mu.arrivals = s.mu.arrivals ∧
    (s.freeEntry i).mu.resetPending = s.mu.resetPending ∧ (s.freeEntry i).mu.accessTimeout = s.mu.accessTimeout ∧
    (s.freeEntry i).mu.retryLimit = s.mu.retryLimit ∧ (s.freeEntry i).mu.retryBackoff = s.mu.retryBackoff ∧
    (s.freeEntry i).mu.fairness = s.mu.fairness ∧ (s.freeEntry i).mu.haltOnFatal = s.mu.haltOnFatal ∧
    (s.freeEntry i).mu.managers = s.mu.managers ∧ (s.freeEntry i).mu.portEnable = s.mu.portEnable ∧
    (s.freeEntry i).mu.portBase = s.mu.portBase ∧ (s.freeEntry i).mu.port = s.mu.port ∧
    (s.freeEntry i).link.state = s.link.state ∧ (s.freeEntry i).link.sessionStart = s.link.sessionStart ∧
    (s.freeEntry i).link.skip = s.link.skip ∧ (s.freeEntry i).link.seq = s.link.seq ∧
    (s.freeEntry i).link.tx = s.link.tx := by
  simp [State.freeEntry]

@[simp] theorem State.updateEntry_frame (i : Fin 24) (f : TrackerEntry → TrackerEntry) (s : State) :
    (s.updateEntry i f).link = s.link ∧ (s.updateEntry i f).wd = s.wd ∧ (s.updateEntry i f).pwq = s.pwq ∧
    (s.updateEntry i f).lbe = s.lbe ∧ (s.updateEntry i f).ecu = s.ecu ∧ (s.updateEntry i f).nq = s.nq ∧
    (s.updateEntry i f).mu = s.mu ∧ (s.updateEntry i f).portAnswer = s.portAnswer ∧
    (s.updateEntry i f).pending = s.pending := by
  unfold State.updateEntry
  and_intros <;> rfl

@[simp] theorem State.allocate_frame (i : Fin 24) (q : DataRequest) (o : DecodeOutcome) (s : State) :
    (s.allocate i q o).link = s.link ∧ (s.allocate i q o).wd = s.wd ∧ (s.allocate i q o).pwq = s.pwq ∧
    (s.allocate i q o).lbe = s.lbe ∧ (s.allocate i q o).ecu = s.ecu ∧ (s.allocate i q o).nq = s.nq ∧
    (s.allocate i q o).mu = s.mu ∧ (s.allocate i q o).portAnswer = s.portAnswer ∧
    (s.allocate i q o).pending = s.pending := by
  unfold State.allocate
  and_intros <;> rfl

/-- A field that no counting out changes is unchanged by all of a session end's. -/
theorem State.foldl_countOut {α : Type} (f : State → α) (h : ∀ g s, f (State.countOut g s) = f s)
    (gs : List (BitVec 8)) (s : State) : f (gs.foldl (fun t g => State.countOut g t) s) = f s := by
  induction gs generalizing s with
  | nil => rfl
  | cons g gs ih => rw [List.foldl_cons, ih, h]

/-! ## Sessions -/

@[simp] theorem State.endSession_frame (s : State) :
    s.endSession.pwq = s.pwq ∧ s.endSession.ecu = s.ecu ∧ s.endSession.portAnswer = s.portAnswer ∧
    s.endSession.pending = s.pending ∧ s.endSession.wd.staging = s.wd.staging ∧ s.endSession.wd.active = s.wd.active ∧
    s.endSession.wd.generation = s.wd.generation ∧ s.endSession.mu.resetPending = s.mu.resetPending ∧
    s.endSession.mu.accessTimeout = s.mu.accessTimeout ∧ s.endSession.mu.retryLimit = s.mu.retryLimit ∧
    s.endSession.mu.retryBackoff = s.mu.retryBackoff ∧ s.endSession.mu.fairness = s.mu.fairness ∧
    s.endSession.mu.haltOnFatal = s.mu.haltOnFatal ∧ s.endSession.mu.managers = s.mu.managers ∧
    s.endSession.mu.portEnable = s.mu.portEnable ∧ s.endSession.mu.portBase = s.mu.portBase := by
  unfold State.endSession
  split
  · simp
  · and_intros
    · exact State.foldl_countOut (fun s => s.pwq) (by simp) _ _
    · exact State.foldl_countOut (fun s => s.ecu) (by simp) _ _
    · exact State.foldl_countOut (fun s => s.portAnswer) (by simp) _ _
    · exact State.foldl_countOut (fun s => s.pending) (by simp) _ _
    · exact State.foldl_countOut (fun s => s.wd.staging) (by simp) _ _
    · exact State.foldl_countOut (fun s => s.wd.active) (by simp) _ _
    · exact State.foldl_countOut (fun s => s.wd.generation) (by simp) _ _
    · exact State.foldl_countOut (fun s => s.mu.resetPending) (by simp) _ _
    · exact State.foldl_countOut (fun s => s.mu.accessTimeout) (by simp) _ _
    · exact State.foldl_countOut (fun s => s.mu.retryLimit) (by simp) _ _
    · exact State.foldl_countOut (fun s => s.mu.retryBackoff) (by simp) _ _
    · exact State.foldl_countOut (fun s => s.mu.fairness) (by simp) _ _
    · exact State.foldl_countOut (fun s => s.mu.haltOnFatal) (by simp) _ _
    · exact State.foldl_countOut (fun s => s.mu.managers) (by simp) _ _
    · exact State.foldl_countOut (fun s => s.mu.portEnable) (by simp) _ _
    · exact State.foldl_countOut (fun s => s.mu.portBase) (by simp) _ _

/-! ## The local bus -/

@[simp] theorem State.setHead_frame (f : WriteRecord → WriteRecord) (s : State) :
    (s.setHead f).link = s.link ∧ (s.setHead f).wd = s.wd ∧ (s.setHead f).rt = s.rt ∧ (s.setHead f).lbe = s.lbe ∧
    (s.setHead f).ecu = s.ecu ∧ (s.setHead f).nq = s.nq ∧ (s.setHead f).mu = s.mu ∧
    (s.setHead f).portAnswer = s.portAnswer ∧ (s.setHead f).pending = s.pending := by
  unfold State.setHead; (repeat' split) <;> and_intros <;> rfl

@[simp] theorem State.request_frame (c : CurrentItem) (n : Nat) (s : State) :
    (s.request c n).link = s.link ∧ (s.request c n).wd = s.wd ∧ (s.request c n).pwq = s.pwq ∧
    (s.request c n).rt = s.rt ∧ (s.request c n).ecu = s.ecu ∧ (s.request c n).nq = s.nq ∧ (s.request c n).mu = s.mu ∧
    (s.request c n).portAnswer = s.portAnswer ∧ (s.request c n).pending = s.pending := by
  unfold State.request
  and_intros <;> rfl

@[simp] theorem State.clearMark_frame (i : Fin 24) (s : State) :
    (s.clearMark i).link = s.link ∧ (s.clearMark i).wd = s.wd ∧ (s.clearMark i).pwq = s.pwq ∧
    (s.clearMark i).rt = s.rt ∧ (s.clearMark i).ecu = s.ecu ∧ (s.clearMark i).nq = s.nq ∧ (s.clearMark i).mu = s.mu ∧
    (s.clearMark i).portAnswer = s.portAnswer ∧ (s.clearMark i).pending = s.pending := by
  unfold State.clearMark; (repeat' split) <;> and_intros <;> rfl

@[simp] theorem State.grantHead_frame (s : State) :
    s.grantHead.link = s.link ∧ s.grantHead.wd = s.wd ∧ s.grantHead.rt = s.rt ∧ s.grantHead.ecu = s.ecu ∧
    s.grantHead.nq = s.nq ∧ s.grantHead.mu = s.mu ∧ s.grantHead.portAnswer = s.portAnswer ∧
    s.grantHead.pending = s.pending := by
  simp [State.grantHead]

@[simp] theorem State.grantEntry_frame (i : Fin 24) (s : State) :
    (s.grantEntry i).link = s.link ∧ (s.grantEntry i).wd = s.wd ∧ (s.grantEntry i).pwq = s.pwq ∧
    (s.grantEntry i).ecu = s.ecu ∧ (s.grantEntry i).nq = s.nq ∧ (s.grantEntry i).mu = s.mu ∧
    (s.grantEntry i).portAnswer = s.portAnswer ∧ (s.grantEntry i).pending = s.pending := by
  simp [State.grantEntry]

@[simp] theorem State.drive_frame (it : Item) (n : Nat) (c : Cycle) (s : State) :
    (s.drive it n c).link = s.link ∧ (s.drive it n c).wd = s.wd ∧ (s.drive it n c).pwq = s.pwq ∧
    (s.drive it n c).rt = s.rt ∧ (s.drive it n c).ecu = s.ecu ∧ (s.drive it n c).nq = s.nq ∧
    (s.drive it n c).mu = s.mu ∧ (s.drive it n c).portAnswer = s.portAnswer ∧ (s.drive it n c).pending = s.pending := by
  unfold State.drive
  and_intros <;> rfl

@[simp] theorem State.releaseBus_frame (s : State) :
    s.releaseBus.link = s.link ∧ s.releaseBus.wd = s.wd ∧ s.releaseBus.pwq = s.pwq ∧ s.releaseBus.rt = s.rt ∧
    s.releaseBus.ecu = s.ecu ∧ s.releaseBus.nq = s.nq ∧ s.releaseBus.mu = s.mu ∧
    s.releaseBus.portAnswer = s.portAnswer ∧ s.releaseBus.pending = s.pending := by
  unfold State.releaseBus
  and_intros <;> rfl

@[simp] theorem State.clearCurrent_frame (s : State) :
    s.clearCurrent.link = s.link ∧ s.clearCurrent.wd = s.wd ∧ s.clearCurrent.pwq = s.pwq ∧ s.clearCurrent.rt = s.rt ∧
    s.clearCurrent.ecu = s.ecu ∧ s.clearCurrent.nq = s.nq ∧ s.clearCurrent.mu = s.mu ∧
    s.clearCurrent.portAnswer = s.portAnswer ∧ s.clearCurrent.pending = s.pending := by
  unfold State.clearCurrent
  and_intros <;> rfl

@[simp] theorem State.retireHead_frame (s : State) :
    s.retireHead.lbe = s.lbe ∧ s.retireHead.ecu = s.ecu ∧ s.retireHead.nq = s.nq ∧
    s.retireHead.portAnswer = s.portAnswer ∧ s.retireHead.pending = s.pending := by
  unfold State.retireHead; (repeat' split) <;> simp

@[simp] theorem State.finishEntry_frame (i : Fin 24) (st : Status) (s : State) :
    (s.finishEntry i st).pwq = s.pwq ∧ (s.finishEntry i st).lbe = s.lbe ∧ (s.finishEntry i st).ecu = s.ecu ∧
    (s.finishEntry i st).nq = s.nq ∧ (s.finishEntry i st).portAnswer = s.portAnswer ∧
    (s.finishEntry i st).pending = s.pending := by
  unfold State.finishEntry; (repeat' split) <;> simp

@[simp] theorem State.handBack_frame (st : Status) (s : State) :
    (s.handBack st).lbe = s.lbe ∧ (s.handBack st).ecu = s.ecu ∧ (s.handBack st).nq = s.nq ∧
    (s.handBack st).portAnswer = s.portAnswer ∧ (s.handBack st).pending = s.pending := by
  unfold State.handBack; (repeat' split) <;> simp

@[simp] theorem State.reportOption_frame (r : Option Report) (s : State) :
    (s.reportOption r).portAnswer = s.portAnswer ∧ (s.reportOption r).pending = s.pending := by
  unfold State.reportOption; (repeat' split) <;> simp

@[simp] theorem State.checkParity_frame (i : Fin 24) (it : Item) (w : Word) (p : Nibble) (s : State) :
    (s.checkParity i it w p).link = s.link ∧ (s.checkParity i it w p).wd = s.wd ∧
    (s.checkParity i it w p).pwq = s.pwq ∧ (s.checkParity i it w p).rt = s.rt ∧ (s.checkParity i it w p).ecu = s.ecu ∧
    (s.checkParity i it w p).nq = s.nq ∧ (s.checkParity i it w p).mu = s.mu ∧
    (s.checkParity i it w p).portAnswer = s.portAnswer ∧ (s.checkParity i it w p).pending = s.pending := by
  unfold State.checkParity; (repeat' split) <;> and_intros <;> rfl

@[simp] theorem State.acknowledge_frame (it : Item) (w : Word) (p : Nibble) (s : State) :
    (s.acknowledge it w p).link = s.link ∧ (s.acknowledge it w p).wd = s.wd ∧ (s.acknowledge it w p).ecu = s.ecu ∧
    (s.acknowledge it w p).nq = s.nq ∧ (s.acknowledge it w p).mu = s.mu ∧
    (s.acknowledge it w p).portAnswer = s.portAnswer ∧ (s.acknowledge it w p).pending = s.pending := by
  unfold State.acknowledge; (repeat' split) <;> simp

@[simp] theorem State.nextBeat_frame (it : Item) (s : State) :
    (s.nextBeat it).link = s.link ∧ (s.nextBeat it).wd = s.wd ∧ (s.nextBeat it).pwq = s.pwq ∧
    (s.nextBeat it).rt = s.rt ∧ (s.nextBeat it).ecu = s.ecu ∧ (s.nextBeat it).nq = s.nq ∧ (s.nextBeat it).mu = s.mu ∧
    (s.nextBeat it).portAnswer = s.portAnswer ∧ (s.nextBeat it).pending = s.pending := by
  unfold State.nextBeat; (repeat' split) <;> simp

@[simp] theorem State.endOk_frame (s : State) :
    s.endOk.ecu = s.ecu ∧ s.endOk.nq = s.nq ∧ s.endOk.portAnswer = s.portAnswer ∧ s.endOk.pending = s.pending := by
  simp [State.endOk]

@[simp] theorem State.endFailed_frame (f : Failure) (s : State) :
    (s.endFailed f).portAnswer = s.portAnswer ∧ (s.endFailed f).pending = s.pending := by
  simp [State.endFailed]

@[simp] theorem State.retryHead_frame (s : State) :
    s.retryHead.nq = s.nq ∧ s.retryHead.portAnswer = s.portAnswer ∧ s.retryHead.pending = s.pending := by
  unfold State.retryHead; (repeat' split) <;> simp

@[simp] theorem State.backoffEntry_frame (i : Fin 24) (s : State) :
    (s.backoffEntry i).link = s.link ∧ (s.backoffEntry i).wd = s.wd ∧ (s.backoffEntry i).pwq = s.pwq ∧
    (s.backoffEntry i).ecu = s.ecu ∧ (s.backoffEntry i).nq = s.nq ∧ (s.backoffEntry i).mu = s.mu ∧
    (s.backoffEntry i).portAnswer = s.portAnswer ∧ (s.backoffEntry i).pending = s.pending := by
  unfold State.backoffEntry
  and_intros <;> rfl

@[simp] theorem State.retryEntry_frame (i : Fin 24) (s : State) :
    (s.retryEntry i).pwq = s.pwq ∧ (s.retryEntry i).ecu = s.ecu ∧ (s.retryEntry i).nq = s.nq ∧
    (s.retryEntry i).portAnswer = s.portAnswer ∧ (s.retryEntry i).pending = s.pending := by
  unfold State.retryEntry; (repeat' split) <;> simp

@[simp] theorem State.headExpires_frame (s : State) :
    s.headExpires.link = s.link ∧ s.headExpires.wd = s.wd ∧ s.headExpires.rt = s.rt ∧ s.headExpires.ecu = s.ecu ∧
    s.headExpires.nq = s.nq ∧ s.headExpires.mu = s.mu ∧ s.headExpires.portAnswer = s.portAnswer ∧
    s.headExpires.pending = s.pending := by
  simp [State.headExpires]

@[simp] theorem State.entryExpires_frame (i : Fin 24) (s : State) :
    (s.entryExpires i).link = s.link ∧ (s.entryExpires i).wd = s.wd ∧ (s.entryExpires i).pwq = s.pwq ∧
    (s.entryExpires i).ecu = s.ecu ∧ (s.entryExpires i).nq = s.nq ∧ (s.entryExpires i).mu = s.mu ∧
    (s.entryExpires i).portAnswer = s.portAnswer ∧ (s.entryExpires i).pending = s.pending := by
  unfold State.entryExpires
  and_intros <;> rfl

/-! ## The upstream link, the slots and the notice port -/

@[simp] theorem State.skipRaised_frame (s : State) :
    s.skipRaised.wd = s.wd ∧ s.skipRaised.pwq = s.pwq ∧ s.skipRaised.rt = s.rt ∧ s.skipRaised.lbe = s.lbe ∧
    s.skipRaised.ecu = s.ecu ∧ s.skipRaised.nq = s.nq ∧ s.skipRaised.mu = s.mu ∧
    s.skipRaised.portAnswer = s.portAnswer ∧ s.skipRaised.pending = s.pending := by
  unfold State.skipRaised; (repeat' split) <;> and_intros <;> rfl

@[simp] theorem State.beginCredit_frame (s : State) :
    s.beginCredit.wd = s.wd ∧ s.beginCredit.pwq = s.pwq ∧ s.beginCredit.rt = s.rt ∧ s.beginCredit.lbe = s.lbe ∧
    s.beginCredit.ecu = s.ecu ∧ s.beginCredit.nq = s.nq ∧ s.beginCredit.mu = s.mu ∧
    s.beginCredit.portAnswer = s.portAnswer ∧ s.beginCredit.pending = s.pending := by
  unfold State.beginCredit
  and_intros <;> rfl

@[simp] theorem State.beginReply_frame (k : Fin 2) (s : State) :
    (s.beginReply k).wd = s.wd ∧ (s.beginReply k).pwq = s.pwq ∧ (s.beginReply k).rt = s.rt ∧
    (s.beginReply k).lbe = s.lbe ∧ (s.beginReply k).ecu = s.ecu ∧ (s.beginReply k).nq = s.nq ∧
    (s.beginReply k).mu = s.mu ∧ (s.beginReply k).portAnswer = s.portAnswer ∧ (s.beginReply k).pending = s.pending := by
  unfold State.beginReply; (repeat' split) <;> and_intros <;> rfl

@[simp] theorem State.beginResponse_frame (i : Fin 24) (s : State) :
    (s.beginResponse i).wd = s.wd ∧ (s.beginResponse i).pwq = s.pwq ∧ (s.beginResponse i).rt = s.rt ∧
    (s.beginResponse i).lbe = s.lbe ∧ (s.beginResponse i).ecu = s.ecu ∧ (s.beginResponse i).nq = s.nq ∧
    (s.beginResponse i).mu = s.mu ∧ (s.beginResponse i).portAnswer = s.portAnswer ∧
    (s.beginResponse i).pending = s.pending := by
  unfold State.beginResponse
  and_intros <;> rfl

@[simp] theorem State.beginNotice_frame (n : Notice) (l : List Notice) (s : State) :
    (s.beginNotice n l).wd = s.wd ∧ (s.beginNotice n l).pwq = s.pwq ∧ (s.beginNotice n l).rt = s.rt ∧
    (s.beginNotice n l).lbe = s.lbe ∧ (s.beginNotice n l).ecu = s.ecu ∧ (s.beginNotice n l).mu = s.mu ∧
    (s.beginNotice n l).portAnswer = s.portAnswer ∧ (s.beginNotice n l).pending = s.pending := by
  unfold State.beginNotice
  and_intros <;> rfl

@[simp] theorem State.clearTx_frame (s : State) :
    s.clearTx.wd = s.wd ∧ s.clearTx.pwq = s.pwq ∧ s.clearTx.rt = s.rt ∧ s.clearTx.lbe = s.lbe ∧
    s.clearTx.ecu = s.ecu ∧ s.clearTx.nq = s.nq ∧ s.clearTx.mu = s.mu ∧ s.clearTx.portAnswer = s.portAnswer ∧
    s.clearTx.pending = s.pending := by
  unfold State.clearTx
  and_intros <;> rfl

@[simp] theorem State.sessionLoaded_frame (s : State) :
    s.sessionLoaded.wd = s.wd ∧ s.sessionLoaded.pwq = s.pwq ∧ s.sessionLoaded.rt = s.rt ∧
    s.sessionLoaded.lbe = s.lbe ∧ s.sessionLoaded.ecu = s.ecu ∧ s.sessionLoaded.nq = s.nq ∧
    s.sessionLoaded.mu = s.mu ∧ s.sessionLoaded.portAnswer = s.portAnswer ∧ s.sessionLoaded.pending = s.pending := by
  unfold State.sessionLoaded
  and_intros <;> rfl

@[simp] theorem State.freeSlot_frame (k : Fin 2) (s : State) :
    (s.freeSlot k).link = s.link ∧ (s.freeSlot k).wd = s.wd ∧ (s.freeSlot k).pwq = s.pwq ∧ (s.freeSlot k).rt = s.rt ∧
    (s.freeSlot k).lbe = s.lbe ∧ (s.freeSlot k).ecu = s.ecu ∧ (s.freeSlot k).nq = s.nq ∧
    (s.freeSlot k).portAnswer = s.portAnswer ∧ (s.freeSlot k).pending = s.pending := by
  unfold State.freeSlot
  and_intros <;> rfl

@[simp] theorem State.fillSlot_frame (k : Fin 2) (r : MgmtRequest) (s : State) :
    (s.fillSlot k r).link = s.link ∧ (s.fillSlot k r).wd = s.wd ∧ (s.fillSlot k r).pwq = s.pwq ∧
    (s.fillSlot k r).rt = s.rt ∧ (s.fillSlot k r).lbe = s.lbe ∧ (s.fillSlot k r).ecu = s.ecu ∧
    (s.fillSlot k r).nq = s.nq ∧ (s.fillSlot k r).portAnswer = s.portAnswer ∧ (s.fillSlot k r).pending = s.pending := by
  unfold State.fillSlot
  and_intros <;> rfl

@[simp] theorem State.setPort_frame (p : PortState) (s : State) :
    (s.setPort p).link = s.link ∧ (s.setPort p).wd = s.wd ∧ (s.setPort p).pwq = s.pwq ∧ (s.setPort p).rt = s.rt ∧
    (s.setPort p).lbe = s.lbe ∧ (s.setPort p).ecu = s.ecu ∧ (s.setPort p).nq = s.nq ∧
    (s.setPort p).portAnswer = s.portAnswer ∧ (s.setPort p).pending = s.pending := by
  unfold State.setPort
  and_intros <;> rfl

@[simp] theorem State.swapBanks_frame (s : State) :
    s.swapBanks.link = s.link ∧ s.swapBanks.pwq = s.pwq ∧ s.swapBanks.rt = s.rt ∧ s.swapBanks.lbe = s.lbe ∧
    s.swapBanks.ecu = s.ecu ∧ s.swapBanks.nq = s.nq ∧ s.swapBanks.mu = s.mu ∧ s.swapBanks.portAnswer = s.portAnswer ∧
    s.swapBanks.pending = s.pending := by
  unfold State.swapBanks
  and_intros <;> rfl

@[simp] theorem State.answerBeat_frame (a : Option PortAnswer) (s : State) :
    (s.answerBeat a).link = s.link ∧ (s.answerBeat a).wd = s.wd ∧ (s.answerBeat a).pwq = s.pwq ∧
    (s.answerBeat a).rt = s.rt ∧ (s.answerBeat a).lbe = s.lbe ∧ (s.answerBeat a).ecu = s.ecu ∧
    (s.answerBeat a).nq = s.nq ∧ (s.answerBeat a).mu = s.mu ∧ (s.answerBeat a).pending = s.pending := by
  unfold State.answerBeat
  and_intros <;> rfl

@[simp] theorem State.writeObject_frame (o : ObjectId) (w : Word) (s : State) :
    (s.writeObject o w).link = s.link ∧ (s.writeObject o w).pwq = s.pwq ∧ (s.writeObject o w).rt = s.rt ∧
    (s.writeObject o w).lbe = s.lbe ∧ (s.writeObject o w).nq = s.nq ∧ (s.writeObject o w).portAnswer = s.portAnswer ∧
    (s.writeObject o w).pending = s.pending := by
  cases o <;> (and_intros <;> rfl)

end Sys2Proof.Machine
end

