-- ==== Sys2Proof/Laws/Effects.lean ====
section
/-! SUPPORT. Laws/Effects.lean: what each shared operation does to the fields it changes: credits, the drain, retirement,
the entry to HALTED and the error report. -/

namespace Sys2Proof.Machine

/-! ## Credits (R169) -/

theorem State.release_up {s : State} (p : Pool) (h : s.link.state = .up) : s.release p =
    { s with link := s.link.setPool p ⟨(s.link.pool p).outstanding, (s.link.pool p).awaiting + 1⟩ } := by
  simp only [State.release, h]

theorem State.release_down {s : State} (p : Pool) (h : s.link.state = .down) : s.release p = s := by
  simp only [State.release, h]

/-- R169: a non-posted credit. -/
theorem State.release_nonPosted (s : State) : s.release .nonPosted = { s with link := if s.link.state = .up then
    { s.link with nonPosted := ⟨s.link.nonPosted.outstanding, s.link.nonPosted.awaiting + 1⟩ } else s.link } := by
  cases h : s.link.state with
  | up => rw [State.release_up _ h]; rfl
  | down => rw [State.release_down _ h]; rfl

/-! ## Replies and the drain (R30, R31, R142) -/

theorem State.placeReply_slot (j k : Fin 2) (m : MgmtReply) (s : State) :
    (s.placeReply k m).mu.slots[j] = if j = k then s.mu.slots[k].answered m else s.mu.slots[j] := by
  simp only [State.placeReply, Fin.getElem_fin, Vector.getElem_set, Fin.ext_iff, eq_comm]

/-- R31: only a slot that holds a COMMIT gets the DONE of an ended drain. -/
theorem State.placeDone_slot (k : Fin 2) (s : State) (h : s.mu.slots[k].holdsCommit = false) :
    s.placeDone.mu.slots[k] = s.mu.slots[k] := by
  unfold State.placeDone
  split
  next h0 =>
    rw [State.placeReply_slot, if_neg]
    rintro rfl
    exact Bool.false_ne_true (h.symm.trans h0)
  next =>
    split
    next h1 =>
      rw [State.placeReply_slot, if_neg]
      rintro rfl
      exact Bool.false_ne_true (h.symm.trans h1)
    next => rfl

/-- R31: with no slot that holds a COMMIT no DONE is placed. -/
theorem State.placeDone_none {s : State} (h : ∀ k : Fin 2, s.mu.slots[k].holdsCommit = false) : s.placeDone = s := by
  have h0 : s.mu.slots[0].holdsCommit = false := h 0
  have h1 : s.mu.slots[1].holdsCommit = false := h 1
  unfold State.placeDone
  rw [if_neg (ne_true_of_eq_false h0), if_neg (ne_true_of_eq_false h1)]

/-- R31: the one slot that holds a COMMIT gets DONE with the current generation. -/
theorem State.placeDone_held {s : State} {k : Fin 2} {r : MgmtRequest} (hr : s.mu.slots[k] = .held r)
    (hk : s.mu.slots[k].holdsCommit = true)
    (hone : ¬(s.mu.slots[0].holdsCommit = true ∧ s.mu.slots[1].holdsCommit = true)) :
    s.placeDone = s.replied k r (generationReply s.wd.generation) := by
  unfold State.placeDone
  match k with
  | 0 => rw [if_pos (show s.mu.slots[0].holdsCommit = true from hk)]; exact State.placeReply_held _ hr
  | 1 =>
    rw [if_neg fun h0 => hone ⟨h0, hk⟩, if_pos (show s.mu.slots[1].holdsCommit = true from hk)]
    exact State.placeReply_held _ hr

/-- R31: the place of the DONE depends on the slots and the generation alone. -/
theorem State.placeDone_mu {s t : State} (hg : s.wd.generation = t.wd.generation) (hm : s.mu = t.mu) :
    s.placeDone.mu = t.placeDone.mu := by
  simp only [State.placeDone, State.placeReply, hg, hm]
  split
  · rfl
  · split
    · rfl
    · exact hm

/-- R30: nothing to count out. -/
theorem State.countOut_current (g : BitVec 8) (s : State) (h : s.wd.commit = .idle ∨ g = s.wd.generation) :
    s.countOut g = s := by
  unfold State.countOut
  rw [if_neg]
  rintro ⟨h1, h2⟩
  rcases h with h | h
  · rw [h] at h1; cases h1
  · exact h2 h

/-- R30: one item less of the older generation. -/
theorem State.countOut_more (g : BitVec 8) (s : State) (hc : s.wd.commit = .draining) (hg : g ≠ s.wd.generation)
    (hd : 1 < s.wd.drain) : s.countOut g = { s with wd := { s.wd with drain := s.wd.drain - 1 } } := by
  unfold State.countOut
  rw [if_pos ⟨hc, hg⟩, if_neg (by omega)]

/-- R31: the drain ends. -/
theorem State.countOut_last (g : BitVec 8) (s : State) (hc : s.wd.commit = .draining) (hg : g ≠ s.wd.generation)
    (hd : s.wd.drain ≤ 1) :
    s.countOut g = State.placeDone { s with wd := { s.wd with drain := 0, commit := .idle } } := by
  unfold State.countOut
  rw [if_pos ⟨hc, hg⟩, if_pos hd]

/-- R30: counting out depends on the Window Decoder and the slots alone. -/
theorem State.countOut_drain (g : BitVec 8) {s t : State} (hw : s.wd = t.wd) (hm : s.mu = t.mu) :
    (s.countOut g).wd = (t.countOut g).wd ∧ (s.countOut g).mu = (t.countOut g).mu := by
  simp only [State.countOut, hw]
  split
  · split
    · exact ⟨by simp only [State.placeDone_frame], State.placeDone_mu rfl hm⟩
    · exact ⟨rfl, hm⟩
  · exact ⟨hw, hm⟩

theorem State.countOut_slot (g : BitVec 8) (k : Fin 2) (s : State) (h : s.mu.slots[k].holdsCommit = false) :
    (s.countOut g).mu.slots[k] = s.mu.slots[k] := by
  unfold State.countOut
  split
  · split
    · exact State.placeDone_slot k { s with wd := { s.wd with drain := 0, commit := .idle } } h
    · rfl
  · rfl

/-! ## Retirement (R48, R63) -/

theorem State.retirement_slot (g : BitVec 8) (k : Fin 2) (s : State) (h : s.mu.slots[k].holdsCommit = false) :
    (s.retirement g).mu.slots[k] = s.mu.slots[k] := by
  unfold State.retirement
  rw [State.countOut_slot] <;> simp only [State.orderingNotice_frame, State.release_frame, h]

theorem mapAll_getElem {α β : Type} {n : Nat} (f : α → β) (v : Vector α n) (i : Fin n) : (mapAll f v)[i] = f v[i] := by
  simp [mapAll]

theorem State.retirement_entry (g : BitVec 8) (i : Fin 24) (s : State) :
    (s.retirement g).rt.entries[i] = s.rt.entries[i].oneRetired := by
  have h : (s.retirement g).rt.entries = mapAll TrackerEntry.oneRetired s.rt.entries := by
    simp only [State.retirement, State.countOut_frame, State.orderingNotice, State.release_frame]
  rw [h, mapAll_getElem]

theorem State.retirement_link (g : BitVec 8) (s : State) : (s.retirement g).link = (s.release .posted).link := by
  simp only [State.retirement, State.countOut_frame, State.orderingNotice_frame]

/-! ## The entry to HALTED (R52, R76, R152) -/

theorem State.foldl_discardRecord_slot (l : List WriteRecord) (k : Fin 2) (s : State)
    (h : s.mu.slots[k].holdsCommit = false) : (l.foldl State.discardRecord s).mu.slots[k] = s.mu.slots[k] := by
  induction l generalizing s with
  | nil => rfl
  | cons r l ih =>
    have h1 : (s.discardRecord r).mu.slots[k] = s.mu.slots[k] := by
      unfold State.discardRecord
      simp only [State.countDiscard_frame]
      exact State.retirement_slot _ _ _ h
    rw [List.foldl_cons, ih _ (by rw [h1]; exact h), h1]

/-- Only a slot that holds a COMMIT is changed by the entry to HALTED. -/
theorem State.enterHalted_slot (k : Fin 2) (s : State) (h : s.mu.slots[k].holdsCommit = false) :
    s.enterHalted.mu.slots[k] = s.mu.slots[k] := by
  simp only [State.enterHalted, State.completeWaiting_frame]
  unfold State.discardWaiting
  exact State.foldl_discardRecord_slot _ k _ h

theorem State.fatalRecorded_slot (k : Fin 2) (s : State) (h : s.mu.slots[k].holdsCommit = false) :
    s.fatalRecorded.mu.slots[k] = s.mu.slots[k] := by
  unfold State.fatalRecorded
  split
  · exact State.enterHalted_slot k s h
  · rfl

/-- Only a slot that holds a COMMIT is changed by an error report. -/
theorem State.report_slot (r : Report) (k : Fin 2) (s : State) (h : s.mu.slots[k].holdsCommit = false) :
    (s.report r).mu.slots[k] = s.mu.slots[k] := by
  unfold State.report
  split
  · rfl
  · simp only [State.afterRecording]
    split <;> split <;> first
      | rfl
      | simp only [State.requestNotice_frame]
      | (rw [State.fatalRecorded_slot] <;> simp only [State.requestNotice_frame, h])

/-- R71, R79, R169: all that freeing an entry does. -/
theorem State.freeEntry_eq (i : Fin 24) (s : State) : s.freeEntry i = State.countOut s.rt.entries[i].generation { s with
    link := if s.link.state = .up then
      { s.link with nonPosted := ⟨s.link.nonPosted.outstanding, s.link.nonPosted.awaiting + 1⟩ } else s.link
    rt := { s.rt with
      order := s.rt.order.filter (· != i), completion := s.rt.completion.filter (· != i)
      entries := s.rt.entries.set i { s.rt.entries[i] with
        state := .free, writesAhead := 0, orphan := false, status := none } } } := by
  simp only [State.freeEntry, State.release_nonPosted]
  rfl

/-! ## The Local Bus Engine has no part in a retirement (R48, R79) -/

theorem State.release_lbe (p : Pool) (b : LocalBusEngine) (s : State) :
    State.release p { s with lbe := b } = { s.release p with lbe := b } := by
  cases h : s.link.state
  · rw [State.release_down p h, State.release_down p (s := { s with lbe := b }) h]
  · rw [State.release_up p h, State.release_up p (s := { s with lbe := b }) h]

theorem State.placeDone_lbe (b : LocalBusEngine) (s : State) :
    State.placeDone { s with lbe := b } = { s.placeDone with lbe := b } := by
  unfold State.placeDone
  dsimp only
  split
  · rfl
  · split <;> rfl

theorem State.countOut_lbe (g : BitVec 8) (b : LocalBusEngine) (s : State) :
    State.countOut g { s with lbe := b } = { s.countOut g with lbe := b } := by
  unfold State.countOut
  dsimp only
  split
  · split
    · exact State.placeDone_lbe b { s with wd := { s.wd with drain := 0, commit := .idle } }
    · rfl
  · rfl

theorem State.retirement_lbe (g : BitVec 8) (b : LocalBusEngine) (s : State) :
    State.retirement g { s with lbe := b } = { s.retirement g with lbe := b } := by
  unfold State.retirement
  rw [State.release_lbe, ← State.countOut_lbe]
  rfl

theorem State.freeEntry_lbe (i : Fin 24) (b : LocalBusEngine) (s : State) :
    State.freeEntry i { s with lbe := b } = { s.freeEntry i with lbe := b } := by
  unfold State.freeEntry
  rw [← State.countOut_lbe, ← State.release_lbe]

/-! ## Nor has the Error Capture Unit (R48, R121) -/

theorem State.release_ecu (p : Pool) (u : ErrorCapture) (s : State) :
    State.release p { s with ecu := u } = { s.release p with ecu := u } := by
  cases h : s.link.state
  · rw [State.release_down p h, State.release_down p (s := { s with ecu := u }) h]
  · rw [State.release_up p h, State.release_up p (s := { s with ecu := u }) h]

theorem State.placeDone_ecu (u : ErrorCapture) (s : State) :
    State.placeDone { s with ecu := u } = { s.placeDone with ecu := u } := by
  unfold State.placeDone
  dsimp only
  split
  · rfl
  · split <;> rfl

theorem State.countOut_ecu (g : BitVec 8) (u : ErrorCapture) (s : State) :
    State.countOut g { s with ecu := u } = { s.countOut g with ecu := u } := by
  unfold State.countOut
  dsimp only
  split
  · split
    · exact State.placeDone_ecu u { s with wd := { s.wd with drain := 0, commit := .idle } }
    · rfl
  · rfl

theorem State.retirement_ecu (g : BitVec 8) (u : ErrorCapture) (s : State) :
    State.retirement g { s with ecu := u } = { s.retirement g with ecu := u } := by
  unfold State.retirement
  rw [State.release_ecu, ← State.countOut_ecu]
  rfl

/-- R52, R121: a record that retires as discarded. -/
theorem State.discardRecord_eq (r : WriteRecord) (s : State) : s.discardRecord r =
    State.retirement r.generation { s with ecu := { s.ecu with discarded := satIncr s.ecu.discarded } } := by
  rw [State.retirement_ecu]
  simp only [State.discardRecord, State.countDiscard, State.retirement_frame]

/-! ## The discards of the entry to HALTED, one by one (R52) -/

/-- R63: an entry that is not ORDERED is not touched by a retirement. -/
theorem TrackerEntry.oneRetired_unordered {e : TrackerEntry} (h : e.state ≠ .ordered) : e.oneRetired = e :=
  if_neg h

/-- R63: an entry that waits still waits after a retirement, and only its state and its count differ. -/
theorem TrackerEntry.oneRetired_waits {e : TrackerEntry} : e.oneRetired.waits = e.waits ∧
    e.oneRetired = { e with state := e.oneRetired.state, writesAhead := e.oneRetired.writesAhead } := by
  unfold TrackerEntry.oneRetired
  split
  next h => refine ⟨?_, rfl⟩; simp only [TrackerEntry.waits, h]; split <;> rfl
  next => exact ⟨rfl, rfl⟩

theorem State.discardRecord_entry (r : WriteRecord) (i : Fin 24) (s : State) :
    (s.discardRecord r).rt.entries[i] = s.rt.entries[i].oneRetired :=
  State.retirement_entry r.generation i s

/-- R34: of a discard the drain and the slots see the record's generation alone. -/
theorem State.discardRecord_drain (r : WriteRecord) (s : State) :
    (s.discardRecord r).wd = (s.countOut r.generation).wd ∧ (s.discardRecord r).mu = (s.countOut r.generation).mu := by
  have h : ((s.release .posted).orderingNotice).wd = s.wd ∧ ((s.release .posted).orderingNotice).mu = s.mu := by
    simp only [State.orderingNotice_frame, State.release_frame, and_self]
  simp only [State.discardRecord, State.countDiscard_frame, State.retirement]
  exact State.countOut_drain _ h.1 h.2

/-- R34, R30, R31: what a row of discards does to a drain and to the slots. -/
theorem State.foldl_discardRecord_drain (l : List WriteRecord) (s : State) :
    let older := (l.filter fun r => r.generation != s.wd.generation).length
    let t := l.foldl State.discardRecord s
    (s.wd.commit = .idle → t.wd = s.wd ∧ t.mu = s.mu) ∧
    (s.wd.commit = .draining →
      (older < s.wd.drain → t.wd = { s.wd with drain := s.wd.drain - older } ∧ t.mu = s.mu) ∧
      (1 ≤ s.wd.drain → older = s.wd.drain → t.wd = { s.wd with drain := 0, commit := .idle } ∧
        t.mu = s.placeDone.mu)) := by
  induction l generalizing s with
  | nil => exact ⟨fun _ => ⟨rfl, rfl⟩, fun _ => ⟨fun _ => ⟨rfl, rfl⟩, fun h1 h2 => absurd h2 (by simp; omega)⟩⟩
  | cons r l ih =>
    intro older t
    obtain ⟨hw, hm⟩ := State.discardRecord_drain r s
    obtain ⟨h1, h2⟩ := ih (s.discardRecord r)
    by_cases hc : s.wd.commit = .idle ∨ r.generation = s.wd.generation
    · rw [State.countOut_current _ _ hc] at hw hm
      rw [hw, hm] at h1
      rw [hw, hm, State.placeDone_mu (congrArg WindowDecoder.generation hw) hm] at h2
      have ho : s.wd.commit = .draining → older = (l.filter fun r => r.generation != s.wd.generation).length := by
        intro hd
        rcases hc with hc | hc
        · rw [hc] at hd; cases hd
        · simp [older, hc]
      exact ⟨h1, fun hd => by rw [ho hd]; exact h2 hd⟩
    · rw [not_or] at hc
      have hd : s.wd.commit = .draining := by cases h : s.wd.commit; exact absurd h hc.1; rfl
      have ho : older = (l.filter fun r => r.generation != s.wd.generation).length + 1 := by simp [older, hc.2]
      refine ⟨fun h => absurd h hc.1, fun _ => ?_⟩
      by_cases hl : 1 < s.wd.drain
      · rw [State.countOut_more _ _ hd hc.2 hl] at hw hm
        have hpd := State.placeDone_mu (congrArg WindowDecoder.generation hw) hm
        have hpd2 : ({ s with wd := { s.wd with drain := s.wd.drain - 1 } } : State).placeDone.mu = s.placeDone.mu := by
          exact State.placeDone_mu rfl rfl
        rw [hw, hm, hpd, hpd2] at h2
        obtain ⟨a, b⟩ := h2 hd
        refine ⟨fun h => ?_, fun h h' => ?_⟩
        · obtain ⟨x, y⟩ := a (by simp only; omega)
          refine ⟨x.trans ?_, y⟩
          simp only; congr 1; omega
        · exact b (by simp only; omega) (by simp only; omega)
      · refine ⟨fun h => absurd h (by omega), fun h h' => ?_⟩
        rw [State.countOut_last _ _ hd hc.2 (by omega)] at hw hm
        simp only [State.placeDone_frame] at hw
        obtain ⟨x, y⟩ := h1 (by rw [hw])
        refine ⟨x.trans hw, y.trans (hm.trans ?_)⟩
        exact State.placeDone_mu rfl rfl

/-- R52: what a row of discards does to one entry. -/
theorem State.foldl_discardRecord_entry (l : List WriteRecord) (i : Fin 24) (s : State) :
    (l.foldl State.discardRecord s).rt.entries[i].waits = s.rt.entries[i].waits ∧
    ((l.foldl State.discardRecord s).rt.entries[i].completed .refusedHalted =
      s.rt.entries[i].completed .refusedHalted) ∧
    (s.rt.entries[i].state ≠ .ordered → (l.foldl State.discardRecord s).rt.entries[i] = s.rt.entries[i]) := by
  induction l generalizing s with
  | nil => exact ⟨rfl, rfl, fun _ => rfl⟩
  | cons r l ih =>
    obtain ⟨h1, h2, h3⟩ := ih (s.discardRecord r)
    have hw := TrackerEntry.oneRetired_waits (e := s.rt.entries[i])
    rw [State.discardRecord_entry] at h1 h2 h3
    refine ⟨h1.trans hw.1, h2.trans ?_, fun h => ?_⟩
    · rw [hw.2]; rfl
    · rw [TrackerEntry.oneRetired_unordered h] at h3
      exact h3 h

/-- R121: a saturating count, one up. -/
theorem satIncr_toNat (c : BitVec 16) : (satIncr c).toNat = min 65535 (c.toNat + 1) := by
  have hc := c.isLt
  unfold satIncr
  split
  next h => rw [h]; decide
  next h =>
    have hne : c.toNat ≠ 65535 := fun hh => h (BitVec.eq_of_toNat_eq hh)
    have h1 : (1 : BitVec 16).toNat = 1 := rfl
    rw [BitVec.toNat_add, h1]
    omega

/-- R121: what a row of discards does to the discarded write count, and that the rest of the unit stays. -/
theorem State.foldl_discardRecord_ecu (l : List WriteRecord) (s : State) :
    (l.foldl State.discardRecord s).ecu = { s.ecu with discarded := (l.foldl State.discardRecord s).ecu.discarded } ∧
    (l.foldl State.discardRecord s).ecu.discarded.toNat = min 65535 (s.ecu.discarded.toNat + l.length) := by
  induction l generalizing s with
  | nil =>
    refine ⟨rfl, ?_⟩
    have := s.ecu.discarded.isLt
    simp only [List.foldl_nil, List.length_nil]
    omega
  | cons r l ih =>
    obtain ⟨h1, h2⟩ := ih (s.discardRecord r)
    have he : (s.discardRecord r).ecu = { s.ecu with discarded := satIncr s.ecu.discarded } := by
      rw [State.discardRecord_eq]
      simp only [State.retirement_frame]
    rw [List.foldl_cons]
    refine ⟨h1.trans (by rw [he]), ?_⟩
    rw [h2, he, List.length_cons]
    have := satIncr_toNat s.ecu.discarded
    simp only at this ⊢
    omega

/-- R169: what a row of discards does to the Link Port. -/
theorem State.foldl_discardRecord_link (l : List WriteRecord) (s : State) :
    (l.foldl State.discardRecord s).link = if s.link.state = .up then { s.link with
      posted := ⟨s.link.posted.outstanding, s.link.posted.awaiting + l.length⟩ } else s.link := by
  induction l generalizing s with
  | nil => simp
  | cons r l ih =>
    have hl : (s.discardRecord r).link = (s.release .posted).link := by
      simp only [State.discardRecord, State.countDiscard_frame, State.retirement_link]
    rw [List.foldl_cons, ih, hl]
    cases h : s.link.state with
    | down =>
      rw [State.release_down _ h]
      simp [h]
    | up =>
      rw [State.release_up _ h]
      simp [h, LinkPort.setPool, LinkPort.pool, Nat.add_assoc, Nat.add_comm 1]

end Sys2Proof.Machine
end

