-- ==== Sys2Proof/Laws/Fields.lean ====
section
/-! SUPPORT. Laws/Fields.lean: what a field of a word built from placed fields reads as (Chapter 11). -/

namespace Sys2Proof.Machine

/-- A field reads what was placed there. -/
theorem field_place_same {n : Nat} (lo : Nat) (v : BitVec n) (h : lo + n ≤ 32) :
    (place lo v).extractLsb' lo n = v := by
  refine BitVec.eq_of_getLsbD_eq fun i hi => ?_
  have h1 : lo + i < 32 := by omega
  simp [place, hi, h1]

/-- A field reads zero of what was placed beside it. -/
theorem field_place_apart {n m : Nat} (lo lo' : Nat) (v : BitVec m) (h : lo + n ≤ lo' ∨ lo' + m ≤ lo) :
    (place lo' v).extractLsb' lo n = 0#n := by
  refine BitVec.eq_of_getLsbD_eq fun i hi => ?_
  simp only [place, BitVec.getLsbD_extractLsb', hi, decide_true, Bool.true_and, BitVec.getLsbD_shiftLeft,
    BitVec.getLsbD_setWidth]
  rcases h with h | h
  · simp
    omega
  · have : v.getLsbD (lo + i - lo') = false := BitVec.getLsbD_of_ge _ _ (by omega)
    simp [this]

theorem field_placeOption_same {n : Nat} (lo : Nat) (v : Option (BitVec n)) (h : lo + n ≤ 32) :
    (placeOption lo v).extractLsb' lo n = v.getD 0 := by
  cases v with
  | none => simp [placeOption]
  | some b => exact field_place_same lo b h

theorem field_placeOption_apart {n m : Nat} (lo lo' : Nat) (v : Option (BitVec m)) (h : lo + n ≤ lo' ∨ lo' + m ≤ lo) :
    (placeOption lo' v).extractLsb' lo n = 0#n := by
  cases v with
  | none => simp [placeOption]
  | some b => exact field_place_apart lo lo' b h

theorem field_or (a b : Word) (lo n : Nat) :
    (a ||| b).extractLsb' lo n = a.extractLsb' lo n ||| b.extractLsb' lo n := by
  refine BitVec.eq_of_getLsbD_eq fun i hi => ?_
  simp [hi]

/-- Table 11-8 (011H): the field of kind `n` in a word of severities, where the kinds of `l` come after the word `w`. -/
theorem field_severities (m : Vector Severity 13) (n : Fin 13) (l : List (Fin 13)) (w : Word) (hl : l.Nodup) :
    (l.foldl (fun w i => w ||| place (2 * i.val) m[i].code) w).extractLsb' (2 * n.val) 2 =
      if n ∈ l then w.extractLsb' (2 * n.val) 2 ||| m[n].code else w.extractLsb' (2 * n.val) 2 := by
  induction l generalizing w with
  | nil => rfl
  | cons a l ih =>
    rw [List.foldl_cons, ih _ (List.nodup_cons.mp hl).2, field_or]
    by_cases ha : a = n
    · subst ha
      rw [if_neg (List.nodup_cons.mp hl).1, if_pos List.mem_cons_self, field_place_same _ _ (by omega)]
    · rw [field_place_apart _ _ _ (by omega), BitVec.or_zero]
      simp only [List.mem_cons, show n ≠ a from fun h => ha h.symm, false_or]

/-- Table 11-8 (011H). -/
theorem field_severityWord (m : Vector Severity 13) (n : Fin 13) :
    (severityWord m).extractLsb' (2 * n.val) 2 = m[n].code := by
  rw [severityWord, field_severities _ _ _ _ (List.nodup_finRange 13), if_pos (List.mem_finRange n)]
  simp

/-- R162: the bits of a word enter the register from bit `n - 1` down to bit 0. -/
theorem crcBits_eq_foldl (w : Word) (n : Nat) (r : BitVec 16) :
    crcBits w n r = ((List.range n).map fun m => w.getLsbD (n - 1 - m)).foldl crcBit r := by
  induction n generalizing r with
  | zero => rfl
  | succ n ih =>
    rw [crcBits, ih, List.range_succ_eq_map, List.map_cons, List.foldl_cons, List.map_map]
    congr 1
    refine List.map_congr_left fun x _ => ?_
    simp only [Function.comp]
    congr 1
    omega

/-- R66, R91: byte `k` of a masked word. -/
theorem maskWord_byte (m : Nibble) (w : Word) (k : Fin 4) : (maskWord m w).extractLsb' (8 * k.val) 8 =
    if m.getLsbD k.val then w.extractLsb' (8 * k.val) 8 else 0 := by
  have h (b3 b2 b1 b0 : BitVec 8) : (ofBytes b3 b2 b1 b0).extractLsb' 0 8 = b0 ∧
      (ofBytes b3 b2 b1 b0).extractLsb' 8 8 = b1 ∧ (ofBytes b3 b2 b1 b0).extractLsb' 16 8 = b2 ∧
      (ofBytes b3 b2 b1 b0).extractLsb' 24 8 = b3 := by
    unfold ofBytes
    refine ⟨?_, ?_, ?_, ?_⟩ <;> refine BitVec.eq_of_getLsbD_eq fun i hi => ?_ <;>
      simp only [BitVec.getLsbD_extractLsb', BitVec.getLsbD_append, hi, decide_true, Bool.true_and] <;>
      (repeat' split) <;> first | omega | (congr 1; omega)
  obtain ⟨h0, h1, h2, h3⟩ := h (keepByte (m.getLsbD 3) (byteOf w 3)) (keepByte (m.getLsbD 2) (byteOf w 2))
    (keepByte (m.getLsbD 1) (byteOf w 1)) (keepByte (m.getLsbD 0) (byteOf w 0))
  match k with
  | 0 => exact h0
  | 1 => exact h1
  | 2 => exact h2
  | 3 => exact h3

/-- Table 11-8: the bank objects stand at their indices. -/
theorem objectAt_bank (i : Fin 16) (n : Fin 4) :
    objectAt (0x100 + 4 * i.val + n.val) = some (.staging i n) ∧
    objectAt (0x200 + 4 * i.val + n.val) = some (.active i n) := by
  revert i n
  decide

end Sys2Proof.Machine
end

