-- ==== Sys2Proof/Laws/Objects.lean ====
section
/-! SUPPORT. Laws/Objects.lean: the ranges of objects that a MGMT_READ returns and a MGMT_WRITE checks and writes (R145,
R146). -/

namespace Sys2Proof.Machine

theorem objectsAt_eq_some (l : List Nat) (os : List ObjectId) :
    objectsAt l = some os ↔ l.map objectAt = os.map some := by
  induction l generalizing os with
  | nil => cases os <;> simp [objectsAt]
  | cons i l ih =>
    cases os with
    | nil => cases hi : objectAt i <;> cases hl : objectsAt l <;> simp [objectsAt, hi, hl]
    | cons o' os' =>
      rw [List.map_cons, List.map_cons, List.cons.injEq, ← ih os']
      cases hi : objectAt i <;> cases hl : objectsAt l <;> simp [objectsAt, hi, hl]

theorem objectsAt_eq_none (l : List Nat) (i : Nat) (hi : i ∈ l) (h : objectAt i = none) : objectsAt l = none := by
  rw [Option.eq_none_iff_forall_not_mem]
  intro os hos
  have h3 : objectAt i ∈ os.map some := by rw [← (objectsAt_eq_some l os).mp hos]; exact List.mem_map_of_mem hi
  rw [h] at h3
  simp at h3

theorem objectRange_succ (a n : Nat) : objectRange a (n + 1) = a :: objectRange (a + 1) n := by
  simp only [objectRange, List.range_succ_eq_map, List.map_cons, List.map_map, Nat.add_zero, List.cons.injEq, true_and]
  exact List.map_congr_left fun x _ => by simp only [Function.comp]; omega

theorem checkWrite_error_iff (i : Nat) (w : Word) (st : MgmtStatus) :
    checkWrite i w = .error st ↔ writeFault i w = some st := by
  unfold checkWrite writeFault
  cases objectAt i with
  | none => simp
  | some o => cases h1 : o.writable <;> cases h2 : o.inRange w <;> simp [h1, h2]

theorem checkWrite_ok_iff (i : Nat) (w : Word) (o : ObjectId) :
    checkWrite i w = .ok o ↔ objectAt i = some o ∧ writeFault i w = none := by
  unfold checkWrite writeFault
  cases objectAt i with
  | none => simp
  | some o => cases h1 : o.writable <;> cases h2 : o.inRange w <;> simp [h1, h2]

/-- R146: the first object that fails a check gives the status. -/
theorem checkWrites_eq_error (a : Nat) (data : List Word) (n : Nat) (st : MgmtStatus) (hn : n < data.length)
    (h : ∀ m, m < n → writeFault (a + m) (data.getD m 0) = none)
    (hf : writeFault (a + n) (data.getD n 0) = some st) :
    checkWrites ((objectRange a data.length).zip data) = .error st := by
  induction data generalizing a n with
  | nil => exact absurd hn (Nat.not_lt_zero n)
  | cons w data ih =>
    rw [List.length_cons, objectRange_succ, List.zip_cons_cons, checkWrites]
    cases n with
    | zero => rw [(checkWrite_error_iff a w st).mpr hf]
    | succ n =>
      cases hc : checkWrite a w with
      | error st' =>
        rw [checkWrite_error_iff] at hc
        exact absurd ((h 0 (Nat.succ_pos n)).symm.trans hc) (by simp)
      | ok o =>
        have hrest := ih (a + 1) n (Nat.lt_of_succ_lt_succ hn)
          (fun m hm => by rw [Nat.add_right_comm]; exact h (m + 1) (Nat.succ_lt_succ hm))
          (by rw [Nat.add_right_comm]; exact hf)
        simp only [hrest]

/-- R146: a write that passes every check writes all of its objects. -/
theorem checkWrites_eq_ok (a : Nat) (data : List Word) (os : List ObjectId)
    (ho : (List.range data.length).map (fun n => objectAt (a + n)) = os.map some)
    (h : ∀ m, m < data.length → writeFault (a + m) (data.getD m 0) = none) :
    checkWrites ((objectRange a data.length).zip data) = .ok (os.zip data) := by
  induction data generalizing a os with
  | nil =>
    cases os with
    | nil => rfl
    | cons o os => cases ho
  | cons w data ih =>
    rw [List.length_cons, objectRange_succ, List.zip_cons_cons, checkWrites]
    rw [List.length_cons, List.range_succ_eq_map, List.map_cons, List.map_map] at ho
    cases os with
    | nil => cases ho
    | cons o os =>
      rw [List.map_cons, List.cons.injEq] at ho
      rw [(checkWrite_ok_iff a w o).mpr ⟨ho.1, h 0 (Nat.succ_pos _)⟩]
      have hrest := ih (a + 1) os
        (by rw [← ho.2]; exact List.map_congr_left fun x _ => by simp only [Function.comp]; congr 1; omega)
        (fun m hm => by rw [Nat.add_right_comm]; exact h (m + 1) (Nat.succ_lt_succ hm))
      simp only [hrest, List.zip_cons_cons]

/-- R146: what a MGMT_WRITE leaves to the rest of its step. -/
theorem State.writeObjects_frame (ws : List (ObjectId × Word)) (s : State) :
    (s.writeObjects ws).mu.slots = s.mu.slots ∧ (s.writeObjects ws).mu.port = s.mu.port ∧
    (s.writeObjects ws).ecu.worst = s.ecu.worst := by
  unfold State.writeObjects
  induction ws generalizing s with
  | nil => exact ⟨rfl, rfl, rfl⟩
  | cons w ws ih =>
    rw [List.foldl_cons]
    obtain ⟨h1, h2, h3⟩ := ih (s.writeObject w.1 w.2)
    rw [h1, h2, h3]
    cases w.1 <;> exact ⟨rfl, rfl, rfl⟩

end Sys2Proof.Machine
end

