-- ==== Sys2Proof/Laws/Packets.lean ====
section
/-! SUPPORT. Laws/Packets.lean: a received packet that is sound in integrity, taken through the steps of R163. -/

namespace Sys2Proof.Machine

/-- R162, R178: such a packet gives its header and its data words. -/
theorem PacketReceived.readPacket {words : List Word} {h : Header} {data : List Word} (hp : PacketReceived words h data) :
    Machine.readPacket words = some (h, data) := by
  obtain ⟨w0, w1, check, rfl, hc, rfl⟩ := hp
  have hread : ∀ w2 rest, w2 :: rest = data ++ [check] →
      Machine.readPacket (w0 :: w1 :: w2 :: rest) = some (Header.read w0 w1, data) := by
    intro w2 rest hw
    have h1 : (w2 :: rest).dropLast = data := by rw [hw, List.dropLast_concat]
    have h2 : (w2 :: rest).getLast (List.cons_ne_nil w2 rest) = check := by simp only [hw, List.getLast_concat]
    simp only [Machine.readPacket, h1, h2]
    exact if_pos hc
  cases data with
  | nil => exact hread check [] rfl
  | cons d ds => exact hread d (ds ++ [check]) rfl

/-- R163, steps 2 to 5. -/
theorem PacketReceived.exec {words : List Word} {h : Header} {data : List Word} (hp : PacketReceived words h data)
    (p : Fin 24) {s : State} (hup : s.link.state = .up) : exec (.downstreamPacket words p) s =
      match DownstreamKind.ofCode h.kindCode with
      | none => .next (s.report (headerReport .malformed h data))
      | some k => s.chargePacket k h data p := by
  cases hk : DownstreamKind.ofCode h.kindCode <;>
    simp only [Machine.exec, execDownstreamPacket, hup, State.takePacket, hp.readPacket, hk]

/-- R163, steps 3 to 5: a packet that is charged and well-formed is routed. -/
theorem State.chargePacket_routed {s : State} {k : DownstreamKind} {h : Header} {data : List Word} (p : Fin 24)
    (hc : (s.link.pool k.pool).outstanding ≠ 0) (hf : formWellFormed k h data = true) :
    s.chargePacket k h data p = (s.consume k.pool).route k h data p := by
  simp only [State.chargePacket, if_neg hc, hf, if_true]

/-- R163, step 3, with R169. -/
theorem State.consume_release_up {s : State} (p : Pool) (h : s.link.state = .up) : (s.consume p).release p =
    { s with link := s.link.setPool p ⟨(s.link.pool p).outstanding - 1, (s.link.pool p).awaiting + 1⟩ } := by
  rw [State.release_up p (by simp [h])]
  cases p <;> rfl

/-- R59: the tag check passes. -/
theorem State.tagInUse_iff (tag : Tag) (s : State) : s.tagInUse tag = true ↔
    ∃ i : Fin 24, s.rt.entries[i].state ≠ .free ∧ s.rt.entries[i].orphan = false ∧ s.rt.entries[i].tag = tag := by
  have hclaims : ∀ e : TrackerEntry, e.claims tag = true ↔ e.state ≠ .free ∧ e.orphan = false ∧ e.tag = tag := by
    intro e
    simp [TrackerEntry.claims, TrackerEntry.inUse, and_assoc]
  simp only [State.tagInUse, List.any_eq_true, hclaims, Vector.mem_toList_iff, Vector.mem_iff_getElem]
  constructor
  · rintro ⟨e, ⟨i, hi, rfl⟩, h⟩
    exact ⟨⟨i, hi⟩, h⟩
  · rintro ⟨i, h⟩
    exact ⟨_, ⟨i.val, i.isLt, rfl⟩, h⟩

/-- R61: an entry that is FREE is found if there is one, and it is the preferred one if that is FREE. -/
theorem State.freeEntryFor_some {s : State} (p : Fin 24) (h : ∃ i : Fin 24, s.rt.entries[i].state = .free) :
    ∃ i, s.freeEntryFor p = some i ∧ s.rt.entries[i].state = .free ∧ (s.rt.entries[p].state = .free → i = p) := by
  unfold State.freeEntryFor
  by_cases hp : s.rt.entries[p].state = .free
  · exact ⟨p, by rw [if_neg]; simp only [TrackerEntry.inUse, hp]; decide, hp, fun _ => rfl⟩
  · rw [if_pos (by simpa [TrackerEntry.inUse] using hp)]
    obtain ⟨j, hj⟩ := h
    cases hf : (List.finRange 24).find? fun i => !s.rt.entries[i].inUse with
    | none =>
      have := List.find?_eq_none.mp hf j (List.mem_finRange j)
      simp [TrackerEntry.inUse] at this
      exact absurd hj this
    | some i =>
      have := List.find?_some hf
      exact ⟨i, rfl, by simpa [TrackerEntry.inUse] using this, fun h => absurd h hp⟩

end Sys2Proof.Machine
end

