-- ==== Sys2Proof/WellFormed.lean ====
section
/-! DEFINITION. WellFormed.lean: what a command must be to be an event the manual speaks of.
Register numbers, masks and answers are bounded by their types; two conditions are left. The meanings run ill-formed
commands too (a packet of no words fails its integrity check; the low address bits of a beat are not looked at). -/

namespace Sys2Proof

/-- The physical layer delimits packets, and a packet has at least one word. -/
def packetDelimited (words : List Word) : Bool := !words.isEmpty

/-- A beat on the local bus addresses a word (00_scope, "Addresses"; R132). -/
def wordAligned (address : Word) : Bool := address.extractLsb' 0 2 == 0#2

/-- The well-formed commands. -/
def Instr.wellFormed : Instr → Bool
  | .downstreamPacket words _ => packetDelimited words
  | .noticePortWrite address _ _ _ => wordAligned address
  | .noticePortRead address => wordAligned address
  | .powerOnReset => true
  | .linkUp => true
  | .lossOfLinkSignal => true
  | .mgmtRead => true
  | .mgmtWrite => true
  | .haltOnFatalEnable => true
  | .openPort => true
  | .closePort => true
  | .commit => true
  | .discardStaging => true
  | .clearErrors => true
  | .resetPart => true
  | .unknownCommandCode => true
  | .resetPartTakesEffect => true
  | .arbitrationDecision => true
  | .busGrant => true
  | .ackAnswer _ _ => true
  | .retryAnswer => true
  | .errorAnswer => true
  | .localAccessTimerExpiry => true
  | .backoffIntervalExpiry _ => true
  | .transmitChoice => true
  | .responseSent => true
  | .mgmtReplySent => true
  | .upstreamTransmissionEnds => true

end Sys2Proof
end

