-- ==== Sys2Proof/Laws/PerInstr.lean ====
section
/-! SUPPORT. Laws/PerInstr.lean: what well-formedness asks of each command: a packet has a word, and a beat of another local
master addresses a word (00_scope, "Addresses"; R132). -/

namespace Sys2Proof.Laws.WellFormedMeans

/-- A command is well-formed exactly when its packet has a word and its bus address is a multiple of four. -/
def Statement (i : Instr) : Prop :=
  i.wellFormed = true ↔
    (∀ (words : List Word) (p : Fin 24), i = .downstreamPacket words p → words ≠ []) ∧
    (∀ (a : Word) (e : Nibble) (l : Word) (p : Nibble), i = .noticePortWrite a e l p → a.toNat % 4 = 0) ∧
    ∀ a : Word, i = .noticePortRead a → a.toNat % 4 = 0

theorem wordAligned_iff (a : Word) : wordAligned a = true ↔ a.toNat % 4 = 0 := by
  rw [wordAligned, beq_iff_eq, ← BitVec.toNat_inj]
  simp

theorem powerOnReset : Statement .powerOnReset := by simp [Statement, Instr.wellFormed]

theorem linkUp : Statement .linkUp := by simp [Statement, Instr.wellFormed]

theorem lossOfLinkSignal : Statement .lossOfLinkSignal := by simp [Statement, Instr.wellFormed]

theorem downstreamPacket (words : List Word) (preferred : Fin 24) : Statement (.downstreamPacket words preferred) := by
  simp [Statement, Instr.wellFormed, packetDelimited]

theorem mgmtRead : Statement .mgmtRead := by simp [Statement, Instr.wellFormed]

theorem mgmtWrite : Statement .mgmtWrite := by simp [Statement, Instr.wellFormed]

theorem haltOnFatalEnable : Statement .haltOnFatalEnable := by simp [Statement, Instr.wellFormed]

theorem openPort : Statement .openPort := by simp [Statement, Instr.wellFormed]

theorem closePort : Statement .closePort := by simp [Statement, Instr.wellFormed]

theorem commit : Statement .commit := by simp [Statement, Instr.wellFormed]

theorem discardStaging : Statement .discardStaging := by simp [Statement, Instr.wellFormed]

theorem clearErrors : Statement .clearErrors := by simp [Statement, Instr.wellFormed]

theorem resetPart : Statement .resetPart := by simp [Statement, Instr.wellFormed]

theorem unknownCommandCode : Statement .unknownCommandCode := by simp [Statement, Instr.wellFormed]

theorem resetPartTakesEffect : Statement .resetPartTakesEffect := by simp [Statement, Instr.wellFormed]

theorem arbitrationDecision : Statement .arbitrationDecision := by simp [Statement, Instr.wellFormed]

theorem busGrant : Statement .busGrant := by simp [Statement, Instr.wellFormed]

theorem ackAnswer (lanes : Word) (parity : Nibble) : Statement (.ackAnswer lanes parity) := by simp [Statement, Instr.wellFormed]

theorem retryAnswer : Statement .retryAnswer := by simp [Statement, Instr.wellFormed]

theorem errorAnswer : Statement .errorAnswer := by simp [Statement, Instr.wellFormed]

theorem localAccessTimerExpiry : Statement .localAccessTimerExpiry := by simp [Statement, Instr.wellFormed]

theorem backoffIntervalExpiry (item : BackoffItem) : Statement (.backoffIntervalExpiry item) := by simp [Statement, Instr.wellFormed]

theorem transmitChoice : Statement .transmitChoice := by simp [Statement, Instr.wellFormed]

theorem responseSent : Statement .responseSent := by simp [Statement, Instr.wellFormed]

theorem mgmtReplySent : Statement .mgmtReplySent := by simp [Statement, Instr.wellFormed]

theorem noticePortWrite (address : Word) (enables : Nibble) (lanes : Word) (parity : Nibble) :
    Statement (.noticePortWrite address enables lanes parity) := by
  simp only [Statement, Instr.wellFormed, wordAligned_iff]
  refine ⟨fun h => ⟨?_, ?_, ?_⟩, fun h => h.2.1 address enables lanes parity rfl⟩
  · intro _ _ hne
    cases hne
  · intro a e l p heq
    cases heq
    exact h
  · intro a hne
    cases hne

theorem noticePortRead (address : Word) : Statement (.noticePortRead address) := by
  simp [Statement, Instr.wellFormed, wordAligned_iff]

theorem upstreamTransmissionEnds : Statement .upstreamTransmissionEnds := by simp [Statement, Instr.wellFormed]

end Sys2Proof.Laws.WellFormedMeans
end

