-- ==== Sys2Proof/Laws/Transactions.lean ====
section
/-! SUPPORT. Laws/Transactions.lean: the current item, and the end of its transaction in its store (R46, R47, R67, R79,
R100). -/

namespace Sys2Proof.Machine

/-! ## The beat in progress (R93 to R97) -/

theorem State.BeatOf.beatItem {s : State} {c : CurrentItem} (h : s.BeatOf c) : s.beatItem = s.currentItem := by
  obtain ⟨h1, h2, _⟩ := h
  obtain ⟨b, hb⟩ := Option.isSome_iff_exists.mp h2
  simp only [State.beatItem, h1, hb]

theorem State.currentItem_head {s : State} {r : WriteRecord} {rest : List WriteRecord}
    (hc : s.lbe.current = some .head) (hq : s.pwq = r :: rest) : s.currentItem = some r.item := by
  simp only [State.currentItem, hc, hq, List.head?_cons, Option.map_some]

theorem State.currentItem_entry {s : State} {i : Fin 24} (hc : s.lbe.current = some (.entry i)) :
    s.currentItem = s.rt.entries[i].item := by
  simp only [State.currentItem, hc]

/-! ## What the store of the current item does (Table 5-3) -/

/-- R46, R47: the head retires. -/
theorem State.handedBack_head {s : State} {r : WriteRecord} {rest : List WriteRecord} (st : Status)
    (hc : s.lbe.current = some .head) (hq : s.pwq = r :: rest) : (s.releaseBus.handBack st).clearCurrent =
      State.retirement r.generation { s with pwq := rest, lbe := s.lbe.released } := by
  have h1 : s.releaseBus.handBack st =
      State.retirement r.generation { ({ s with pwq := rest } : State) with lbe := s.releaseBus.lbe } := by
    have hc' : s.releaseBus.lbe.current = some .head := hc
    have hq' : s.releaseBus.pwq = r :: rest := hq
    simp only [State.handBack, hc', State.retireHead, hq']
    rfl
  have h2 := State.retirement_lbe r.generation s.lbe.released { s with pwq := rest }
  rw [h1, h2, State.retirement_lbe]
  rfl

/-- R67: an entry that is no orphan is COMPLETE, last on the completion list. -/
theorem State.handedBack_entry {s : State} {i : Fin 24} (st : Status) (hc : s.lbe.current = some (.entry i))
    (ho : s.rt.entries[i].orphan = false) : (s.releaseBus.handBack st).clearCurrent =
      { s with
        rt := { s.rt with
          completion := s.rt.completion ++ [i]
          entries := s.rt.entries.set i { s.rt.entries[i] with
            state := .complete, status := some st, writesAhead := 0 } }
        lbe := s.lbe.released } := by
  have h1 : s.releaseBus.handBack st = s.releaseBus.completeEntry i st := by
    have hc' : s.releaseBus.lbe.current = some (.entry i) := hc
    have ho' : s.releaseBus.rt.entries[i].orphan = false := ho
    simp only [State.handBack, hc', State.finishEntry]
    exact if_neg (by rw [ho']; exact Bool.false_ne_true)
  rw [h1]
  rfl

/-- R79: an orphan becomes FREE. -/
theorem State.handedBack_orphan {s : State} {i : Fin 24} (st : Status) (hc : s.lbe.current = some (.entry i))
    (ho : s.rt.entries[i].orphan = true) : (s.releaseBus.handBack st).clearCurrent =
      State.freeEntry i { s with lbe := s.lbe.released } := by
  have h1 : s.releaseBus.handBack st = State.freeEntry i { s with lbe := s.releaseBus.lbe } := by
    have hc' : s.releaseBus.lbe.current = some (.entry i) := hc
    simp only [State.handBack, hc', State.finishEntry]
    exact if_pos ho
  rw [h1, State.freeEntry_lbe i s.releaseBus.lbe s, State.freeEntry_lbe i s.lbe.released s]
  rfl

/-! ## Acknowledged words (R43, R66, R99) -/

/-- The parity mark of entry `i` after a beat of a read. -/
theorem State.checkParity_read {s : State} (i : Fin 24) (it : Item) (lanes : Word) (parity : Nibble)
    (hd : it.direction = .read) : s.checkParity i it lanes parity = { s with lbe := { s.lbe with
      parityMarks := if parityError (it.enablesAt it.progress) lanes parity = true then s.lbe.parityMarks.set i true
        else s.lbe.parityMarks } } := by
  simp only [State.checkParity, hd]
  split <;> rfl

theorem State.checkParity_write {s : State} (i : Fin 24) (it : Item) (lanes : Word) (parity : Nibble)
    (hd : it.direction = .write) : s.checkParity i it lanes parity = s := by
  simp only [State.checkParity, hd]

theorem TrackerEntry.acknowledged_read {e : TrackerEntry} (w : Word) (h : e.kind = .read) :
    e.acknowledged w = { e with progress := e.progress + 1, data := e.data ++ [w] } := by
  simp only [TrackerEntry.acknowledged, h]

theorem TrackerEntry.acknowledged_write {e : TrackerEntry} (w : Word) (h : e.kind = .writeConfirmed) :
    e.acknowledged w = { e with progress := e.progress + 1 } := by
  simp only [TrackerEntry.acknowledged, h]

/-- R93: the head's progress rises. -/
theorem State.acknowledge_head {s : State} {r : WriteRecord} {rest : List WriteRecord} (it : Item) (lanes : Word)
    (parity : Nibble) (hc : s.lbe.current = some .head) (hq : s.pwq = r :: rest) :
    s.acknowledge it lanes parity = { s with pwq := { r with progress := r.progress + 1 } :: rest } := by
  unfold State.acknowledge State.setHead
  rw [hc]
  dsimp only
  rw [hq]

/-- R66, R93: an entry's word is handed over. -/
theorem State.acknowledge_entry {s : State} {i : Fin 24} (it : Item) (lanes : Word) (parity : Nibble)
    (hc : s.lbe.current = some (.entry i)) : s.acknowledge it lanes parity =
      (s.checkParity i it lanes parity).updateEntry i fun e => e.acknowledged (it.readWord lanes) := by
  unfold State.acknowledge
  rw [hc]

/-! ## Cycles and beats (R89 to R92, R99) -/

/-- R99: the parity bit driven on each lane. -/
theorem drivenParity_getElem (enables : Nibble) (w : Word) (l : Fin 4) :
    (drivenParity enables w)[l] = if enables.getLsbD l.val then some (laneParity w l.val) else none := by
  match l with
  | 0 => rfl
  | 1 => rfl
  | 2 => rfl
  | 3 => rfl

/-- A beat keeps the address phase of its cycle. -/
theorem Item.beatOf_addressPhase (it : Item) (position : Nat) (c : Cycle) :
    (it.beatOf position c).address = c.address ∧ (it.beatOf position c).direction = c.direction ∧
    (it.beatOf position c).attr = c.attr ∧ (it.beatOf position c).beats = c.beats := by
  unfold Item.beatOf
  cases it.direction <;> exact ⟨rfl, rfl, rfl, rfl⟩

/-- R89, R90, R99: the beat is the one of its position. -/
theorem Item.beatOf_drivesBeat (it : Item) (position : Nat) (c : Cycle) :
    (it.beatOf position c).DrivesBeat it position := by
  unfold Cycle.DrivesBeat Item.beatOf
  cases it.direction
  · exact ⟨rfl, fun _ => ⟨rfl, fun l => Vector.getElem_replicate l.isLt⟩, fun h => absurd h (by decide)⟩
  · exact ⟨rfl, fun h => absurd h (by decide), fun _ => ⟨rfl, fun l => drivenParity_getElem _ _ l⟩⟩

/-- R89, R92: a cycle that begins. -/
theorem Item.cycleAt_beginsAt (it : Item) (position : Nat) : (it.cycleAt position).BeginsAt it position := by
  obtain ⟨h1, h2, h3, h4⟩ := Item.beatOf_addressPhase it position
    { address := wordAt it.placement.localAddress position, direction := it.direction, attr := it.placement.attr,
      beats := beatsFrom it.placement.burstAllowed it.length position, enables := 0, writeData := none,
      parity := Vector.replicate 4 none }
  refine ⟨h1, h2, h3, h4.trans ?_⟩
  simp only [beatsFrom, Bool.and_eq_true, decide_eq_true_eq]

/-- R92, R93: the cycle after an acknowledged word. -/
theorem Item.nextCycle_spec (it : Item) (c : Cycle) : (it.nextCycle c).DrivesBeat it (it.progress + 1) ∧
    (2 ≤ c.beats → (it.nextCycle c).address = c.address ∧ (it.nextCycle c).direction = c.direction ∧
      (it.nextCycle c).attr = c.attr ∧ (it.nextCycle c).beats = c.beats) ∧
    (c.beats < 2 → (it.nextCycle c).BeginsAt it (it.progress + 1)) := by
  unfold Item.nextCycle
  split
  next h => exact ⟨it.beatOf_drivesBeat _ c, fun _ => it.beatOf_addressPhase _ c, fun hc => absurd hc (by omega)⟩
  next h => exact ⟨it.beatOf_drivesBeat _ _, fun hc => absurd hc h, fun _ => it.cycleAt_beginsAt _⟩

/-- R93, R98: the timer restarts and the next beat is driven. -/
theorem State.nextBeat_eq {s : State} {c : Cycle} (it : Item) (hc : s.lbe.cycle = some c) :
    s.nextBeat it = { s with lbe := { s.lbe with
      accessTimer := some s.accessInterval, beat := some ⟨it.progress + 1, it.direction⟩
      cycle := some (it.nextCycle c) } } := by
  unfold State.nextBeat
  rw [hc]
  rfl

end Sys2Proof.Machine
end

