-- ==== Sys2Proof/Tests/Slice0.lean ====
section
/-! SUPPORT. Tests/Slice0.lean: the checks of well-formedness on ill-formed commands, small tests of one step from the
manual's examples, and for every statement with hypotheses a state that meets them. -/

namespace Sys2Proof.Tests

-- One test after another: tests that wait for the kernel side by side take a thread each.
set_option Elab.async false

open Sys2Proof.Machine

/-! ## Small states -/

/-- The state a command leads to, for tests on it. -/
def after (c : Instr) (s : State) : State :=
  match exec c s with
  | .next t => t
  | .fault _ => s
  | .refused _ => s

/-- A window of class 0 read and write, whose other fields are given. -/
def window (code : BitVec 5) (link translation : BitVec 20) (rights : BitVec 8) (posting : Bool) (o : WindowOrder)
    (sw : LaneSwap) : WindowEntry :=
  { enabled := true, sizeCode := code, linkBase := link, translationBase := translation, rights := rights,
    postingAllowed := posting, order := o, laneSwap := sw, burstAllowed := true, attr := 9 }

/-- Table 1-7. -/
def exampleBank : Bank :=
  ((((Bank.reset.set 0 (window 0 0x40010#20 0x00200#20 0 false .strict .noSwap)).set 1
    (window 8 0x40000#20 0x80000#20 0b111#8 true .strict .noSwap)).set 2
    (window 4 0x40100#20 0x10000#20 0b11#8 false .relaxed .swap32)).set 3 { WindowEntry.reset with sizeCode := 27 })

/-- The word address of a byte address. -/
def wordAddr (a : Word) : WordAddress := a.extractLsb' 2 30

/-- A data request of Table 1-8. -/
def request (k : DataKind) (c : ReqClass) (a : Word) (len : Nat) : DataRequest :=
  { kind := k, cls := c, tag := 0, linkAddress := wordAddr a, length := len, firstMask := 15, lastMask := 15, data := [] }

/-- A placement of window 1. -/
def place1 : Placement :=
  { localAddress := 0x20000000#30, index := 1, laneSwap := .noSwap, burstAllowed := true, attr := 9 }

/-- A posted write of two words. -/
def record (g : BitVec 8) (st : RecordState) : WriteRecord :=
  { cls := 0, linkAddress := 0x10000000#30, length := 2, firstMask := 15, lastMask := 15,
    data := [0x11223344#32, 0x55667788#32], placement := place1, generation := g, progress := 0, retryCount := 0,
    state := st }

/-- A read of two words. -/
def readEntry (tag : Tag) (st : EntryState) : TrackerEntry :=
  { TrackerEntry.reset with
    state := st, tag := tag, length := 2, firstMask := 15, lastMask := 15, placement := some place1
    order := some .strict }

/-- A management request of a manager class. -/
def mgmt (k : MgmtKind) (a : WordAddress) (n : BitVec 5) (data : List Word) : MgmtRequest :=
  { kind := k, cls := 0, tag := 7, address := a, length := n, data := data, manager := true }

/-- A MGMT_COMMAND. -/
def command (code : WordAddress) : MgmtRequest := mgmt .mgmtCommand code 1 []

/-- The reset state with one request waiting. -/
def waiting (r : MgmtRequest) : State :=
  { State.reset with mu := { ManagementUnit.reset with slots := #v[.waiting r, .free], arrivals := [0] } }

theorem waiting_executes (r : MgmtRequest) : (waiting r).Executes 0 r :=
  ⟨rfl, rfl, [], [], rfl, fun _ h => absurd h List.not_mem_nil⟩

/-- A session that has begun with nothing in the part. -/
def up : State :=
  { State.reset with link := { LinkPort.reset with
      state := .up, posted := ⟨32, 0⟩, nonPosted := ⟨24, 0⟩, management := ⟨2, 0⟩ } }

/-- The same, OPEN, with the bank of Table 1-7 active. -/
def upOpen : State :=
  { up with wd := { WindowDecoder.reset with active := exampleBank, generation := 7 },
            mu := { ManagementUnit.reset with port := .opened } }

/-- A packet with its check word. -/
def packet (w0 w1 : Word) (data : List Word) : List Word := withCheck (w0 :: w1 :: data)

theorem packet_received (w0 w1 : Word) (data : List Word) :
    PacketReceived (packet w0 w1 data) (Header.read w0 w1) data := by
  refine ⟨w0, w1, place 0 (crc (w0 :: w1 :: data)), rfl, ?_, rfl⟩
  refine BitVec.eq_of_getLsbD_eq fun i hi => ?_
  simp only [place, BitVec.shiftLeft_zero, BitVec.getLsbD_extractLsb', BitVec.getLsbD_setWidth, Nat.zero_add, hi]
  simp [Nat.lt_trans hi (by decide : 16 < 32)]

/-! ## Well-formed commands -/

theorem test_empty_packet_ill_formed : (Instr.downstreamPacket [] 0).wellFormed = false := by decide

theorem test_misaligned_write_ill_formed : (Instr.noticePortWrite 0x7FFF0002#32 15 0 0).wellFormed = false := by decide

theorem test_misaligned_read_ill_formed : (Instr.noticePortRead 0x7FFF0001#32).wellFormed = false := by decide

theorem test_aligned_beats_well_formed : (Instr.noticePortWrite 0x7FFF0000#32 15 0 0).wellFormed = true ∧
    (Instr.noticePortRead 0x7FFF000C#32).wellFormed = true := by decide

/-! ## Windows (Table 1-8) -/

theorem test_table_1_8_accepted :
    decode .opened exampleBank (request .read 0 0x40000100#32 4) =
      .accepted (placementAt exampleBank 1 (wordAddr 0x40000100#32)) .strict ∧
    decode .opened exampleBank (request .writeConfirmed 0 0x40100040#32 1) =
      .accepted (placementAt exampleBank 2 (wordAddr 0x40100040#32)) .relaxed ∧
    (placementAt exampleBank 1 (wordAddr 0x40000100#32)).localAddress = wordAddr 0x80000100#32 ∧
    (placementAt exampleBank 2 (wordAddr 0x40100040#32)).localAddress = wordAddr 0x10000040#32 := by
  decide +kernel

theorem test_table_1_8_refused :
    decode .opened exampleBank (request .writePosted 0 0x40010020#32 2) =
      .denied (placementAt exampleBank 0 (wordAddr 0x40010020#32)) ∧
    decode .opened exampleBank (request .writePosted 0 0x40100040#32 1) =
      .postingRefused (placementAt exampleBank 2 (wordAddr 0x40100040#32)) ∧
    decode .opened exampleBank (request .read 1 0x400FFFF8#32 4) =
      .notContained (placementAt exampleBank 1 (wordAddr 0x400FFFF8#32)) ∧
    decode .opened exampleBank (request .writePosted 1 0x40000200#32 1) =
      .denied (placementAt exampleBank 1 (wordAddr 0x40000200#32)) ∧
    decode .opened exampleBank (request .read 2 0x50000000#32 1) = .unmatched ∧
    decode .opened exampleBank (request .read 0 0x40010FFC#32 2) =
      .notContained (placementAt exampleBank 0 (wordAddr 0x40010FFC#32)) := by
  decide +kernel

/-- Table 2-3: the four attempts' entries. -/
theorem test_table_2_3 :
    (window 4 0x40108#20 0x10000#20 0 false .strict .swap32).rejected = some .misalignedBase ∧
    (window 30 0 0 0 false .strict .noSwap).rejected = some .badSize ∧
    (window 19 0xC0000#20 0 0 false .strict .invalid).rejected = some .beyondSpace ∧
    (window 19 0x80000#20 0 0 false .strict .invalid).rejected = some .badCode ∧
    (window 19 0x80000#20 0 0 false .strict .noSwap).rejected = none ∧
    { window 25 0x12345#20 0 0 false .strict .invalid with enabled := false }.rejected = none := by
  decide +kernel

/-! ## One step of each command -/

theorem test_power_on_reset : after .powerOnReset { upOpen with pending := [.linkUp] } =
    { State.reset with pending := [.linkUp] } := by
  decide +kernel

/-- Table 9-7, second row: three surviving records and one orphan. -/
theorem test_link_up :
    let s : State := { State.reset with
      pwq := [record 0 .queued, record 0 .queued, record 0 .queued]
      rt := { RequestTracker.reset with
        entries := RequestTracker.reset.entries.set 5 { readEntry 1 .active with orphan := true }, order := [5] } }
    (after .linkUp s).link.posted = ⟨29, 0⟩ ∧ (after .linkUp s).link.nonPosted = ⟨23, 0⟩ ∧
      (after .linkUp s).link.management = ⟨2, 0⟩ ∧
      (after .linkUp s).link.tx = some ⟨.credit, creditPacket 29 23 2 true⟩ := by
  decide +kernel

theorem test_loss_of_link_signal :
    let s := { upOpen with nq := [.word 1], rt := { RequestTracker.reset with
      entries := (RequestTracker.reset.entries.set 0 (readEntry 1 .active)).set 1 (readEntry 2 .ready), order := [0, 1] } }
    let t := after .lossOfLinkSignal s
    t.link = LinkPort.reset ∧ t.mu.port = .closed ∧ t.nq = [] ∧ t.rt.order = [0] ∧
      t.rt.entries[0] = { readEntry 1 .active with orphan := true } ∧ t.rt.entries[1].state = .free := by
  decide +kernel

/-- R162: the check of two words, worked out bit by bit from the rule. -/
theorem test_check_of_words : crc [0x31323334#32] = 0x5349#16 ∧ crc [0x31323334#32, 0x35363738#32] = 0xA12B#16 := by
  decide +kernel

/-- A WRITE_POSTED of class 0 to 40000100H through window 1. -/
theorem test_downstream_posted_write :
    let t := after (.downstreamPacket (packet 0x1001F000#32 0x40000100#32 [0xDEADBEEF#32]) 0) upOpen
    t.pwq.map WriteRecord.data = [[0xDEADBEEF#32]] ∧
      t.pwq.map (fun r => r.placement.localAddress) = [wordAddr 0x80000100#32] ∧
      t.pwq.map WriteRecord.generation = [7] ∧ t.link.posted = ⟨31, 0⟩ := by
  decide +kernel

/-- R158, R162: a damaged packet ends the session and fills the record with LINK_CHECK. -/
theorem test_downstream_damaged :
    let t := after (.downstreamPacket [0, 0, 0] 0) upOpen
    t.link.state = .down ∧ t.mu.port = .closed ∧ t.ecu.record = some ⟨.correctable, linkCheckReport⟩ ∧
      t.ecu.worst = some .correctable ∧ t.nq = [] := by
  decide +kernel

/-- Table 11-8: object 000H. -/
theorem test_mgmt_read : (after .mgmtRead (waiting (mgmt .mgmtRead 0 1 []))).mu.slots[0] =
    .reply (mgmt .mgmtRead 0 1 []) ⟨.done, [0x22405A01#32]⟩ := by
  decide +kernel

/-- Table 11-10: the words of a record with every capture field. -/
theorem test_capture_words :
    let e : ErrorRecord := ⟨.fatal,
      { kind := .localTimeout, source := .fromLocal, packet := some ⟨2, 1, 0x10000040#30, 4⟩, tag := some 6
        generation := some 2, window := some ⟨1, 0x20000040#30, 1⟩, firstData := some 0xCAFE0001#32 }⟩
    (List.finRange 6).map e.word =
      [0x040612AA#32, 0x40000100#32, 0x80000100#32, 0x00010102#32, 0xCAFE0001#32, 0x0000001F#32] := by
  decide

/-- R146: the second object is read-only, so the first is not written either. -/
theorem test_mgmt_write_all_or_nothing :
    let r := mgmt .mgmtWrite 4 2 [0x7FFF0001#32, 0]
    let t := after .mgmtWrite (waiting r)
    t.mu.slots[0] = .reply r ⟨.readOnly, []⟩ ∧ t.mu.portEnable = false ∧
      (after .mgmtWrite (waiting (mgmt .mgmtWrite 4 1 [0x7FFF0001#32]))).mu.portBase = 0x7FFF000#28 := by
  decide +kernel

/-- R153: policy with halt-on-fatal enabled, written while FATAL is held. -/
theorem test_halt_on_fatal_enable :
    let w := waiting (mgmt .mgmtWrite 3 1 [0x00011404#32])
    let s := { w with ecu := { ErrorCapture.reset with worst := some .fatal },
                      mu := { w.mu with haltOnFatal := false } }
    (after .haltOnFatalEnable s).mu.port = .halted ∧ (after .haltOnFatalEnable s).mu.haltOnFatal = true := by
  decide +kernel

theorem test_open_close :
    (after .openPort (waiting (command 1))).mu.port = .opened ∧
    (after .closePort (waiting (command 2))).mu.slots[0] = .reply (command 2) ⟨.wrongState, []⟩ := by
  decide +kernel

/-- R27: an empty part commits at once; R29: with a record in flight the reply is held. -/
theorem test_commit :
    let s := { waiting (command 3) with pwq := [record 0 .queued] }
    (after .commit (waiting (command 3))).mu.slots[0] = .reply (command 3) ⟨.done, [1]⟩ ∧
      (after .commit s).mu.slots[0] = .held (command 3) ∧ (after .commit s).wd.commit = .draining ∧
      (after .commit s).wd.drain = 1 ∧ (after .commit s).wd.generation = 1 := by
  decide +kernel

theorem test_discard_staging :
    let s := { waiting (command 4) with wd := { WindowDecoder.reset with staging := exampleBank } }
    (after .discardStaging s).wd = WindowDecoder.reset := by
  decide +kernel

/-- Table 6-5: a clear with an old stamp is STALE. -/
theorem test_clear_errors :
    let r := mgmt .mgmtCommand 5 1 [2]
    let s := { waiting r with ecu := { ErrorCapture.reset with stamp := 3, overflow := 4 } }
    (after .clearErrors s).mu.slots[0] = .reply r ⟨.stale, []⟩ ∧ (after .clearErrors s).ecu.overflow = 4 ∧
      (after .clearErrors { s with ecu := { s.ecu with stamp := 2 } }).ecu.overflow = 0 := by
  decide +kernel

theorem test_reset_part :
    let s := { waiting (command 6) with ecu := { ErrorCapture.reset with worst := some .fatal } }
    let busy := { s with lbe := { LocalBusEngine.reset with engine := .owning } }
    (after .resetPart s).mu = { ManagementUnit.reset with port := .halted } ∧
      (after .resetPart busy).mu.resetPending = true ∧ (after .resetPart busy).mu.slots[0] = .held (command 6) ∧
      (after .resetPartTakesEffect { s with mu := { s.mu with resetPending := true } }).mu.slots[0] = .free := by
  decide +kernel

theorem test_unknown_command_code :
    (after .unknownCommandCode (waiting (command 9))).mu.slots[0] = .reply (command 9) ⟨.badValue, []⟩ := by
  decide +kernel

/-- Table 5-5, decisions 2 and 3 under a fairness limit of 2. -/
theorem test_arbitration_decision :
    let s (streak : Nat) : State := { State.reset with
      pwq := [record 0 .queued], mu := { ManagementUnit.reset with fairness := 2 }
      lbe := { LocalBusEngine.reset with streak := streak }
      rt := { RequestTracker.reset with
        entries := RequestTracker.reset.entries.set 6 (readEntry 6 .ready), order := [6] } }
    (after .arbitrationDecision (s 1)).lbe.current = some .head ∧ (after .arbitrationDecision (s 1)).lbe.streak = 2 ∧
      (after .arbitrationDecision (s 2)).lbe.current = some (.entry 6) ∧
      (after .arbitrationDecision (s 2)).lbe.streak = 0 := by
  decide +kernel

/-- Table 5-6: tag 12, five words from 00480000H under SWAP16, with `progress` words done. -/
def tag12 (progress : Nat) (data : List Word) : TrackerEntry :=
  { TrackerEntry.reset with
    state := .active, tag := 12, length := 5, firstMask := 0b1100#4, lastMask := 0b0011#4, progress := progress
    data := data, order := some .strict
    placement := some { localAddress := wordAddr 0x00480000#32, index := 0, laneSwap := .swap16, burstAllowed := true,
                        attr := 9 } }

/-- The engine in the state given, with tag 12 in entry 3. -/
def busOf (e : EngineState) (progress : Nat) (data : List Word) : State :=
  { State.reset with
    rt := { RequestTracker.reset with
      entries := RequestTracker.reset.entries.set 3 (tag12 progress data), order := [3] }
    lbe := { LocalBusEngine.reset with
      engine := e, current := some (.entry 3), accessTimer := some 1024
      beat := if e = .owning then some ⟨progress, .read⟩ else none
      cycle := if e = .owning then some
        { address := wordAddr 0x00480000#32, direction := .read, attr := 9, beats := 5 - progress, enables := 0
          writeData := none, parity := Vector.replicate 4 none }
        else none } }

/-- Table 5-6, rows 2 and 7: the cycle that a grant begins. -/
theorem test_bus_grant :
    let c (progress : Nat) := (after .busGrant (busOf .requesting progress [])).lbe.cycle
    (c 0).map Cycle.address = some (wordAddr 0x00480000#32) ∧ (c 0).map Cycle.beats = some 5 ∧
      (c 0).map Cycle.enables = some 0b0011#4 ∧ (c 2).map Cycle.address = some (wordAddr 0x00480008#32) ∧
      (c 2).map Cycle.beats = some 3 := by
  decide +kernel

/-- Table 5-6, rows 3 and 8: the word stored, and the last word of a marked read. -/
theorem test_ack_answer :
    let p := parityBits 0xAABBCCDD#32
    let t := after (.ackAnswer 0xAABBCCDD#32 p) (busOf .owning 0 [])
    let m := busOf .owning 4 [0, 0, 0, 0]
    let u := after (.ackAnswer 0xAABBCCDD#32 p)
      { m with lbe := { m.lbe with parityMarks := m.lbe.parityMarks.set 3 true } }
    t.rt.entries[3] = tag12 1 [0xCCDD0000#32] ∧ u.rt.entries[3].status = some .dataParity ∧
      u.rt.completion = [3] ∧ u.lbe.engine = .idle := by
  decide +kernel

/-- Table 5-6, row 5. -/
theorem test_retry_answer :
    let t := after .retryAnswer (busOf .owning 2 [0, 0])
    t.rt.entries[3] = { tag12 2 [0, 0] with state := .backoff, retryCount := 1 } ∧
      t.lbe.entryTimers[3] = some 32 ∧ t.lbe.engine = .idle ∧ t.lbe.current = none := by
  decide +kernel

theorem test_error_answer :
    let t := after .errorAnswer (busOf .owning 3 [0, 0, 0])
    t.rt.entries[3].status = some .targetError ∧ t.rt.entries[3].progress = 3 ∧
      t.ecu.record.map (fun e => e.report.kind) = some .localTargetError := by
  decide +kernel

/-- R98, R110, R152: LOCAL_TIMEOUT is FATAL by default and halts the port. -/
theorem test_local_access_timer_expiry :
    let t := after .localAccessTimerExpiry (busOf .requesting 0 [])
    t.rt.entries[3].status = some .timeout ∧ t.ecu.worst = some .fatal ∧ t.mu.port = .halted := by
  decide +kernel

theorem test_backoff_interval_expiry :
    let s := { State.reset with
      pwq := [record 0 .backoff], lbe := { LocalBusEngine.reset with headTimer := some 32 } }
    (after (.backoffIntervalExpiry .head) s).pwq = [record 0 .queued] := by
  decide +kernel

/-- Table 9-8: choices 1 and 5. -/
theorem test_transmit_choice :
    let s (skip : Nat) : State := { up with
      link := { up.link with skip := skip, seq := 6 }, nq := [.word 1]
      rt := { RequestTracker.reset with
        entries := RequestTracker.reset.entries.set 2 { readEntry 4 .complete with status := some .targetError }
        order := [2], completion := [2] } }
    (after .transmitChoice (s 0)).link.txSource = some (.response 2) ∧ (after .transmitChoice (s 0)).link.skip = 1 ∧
      (after .transmitChoice (s 4)).link.txSource = some .notice ∧ (after .transmitChoice (s 4)).link.skip = 0 ∧
      (after .transmitChoice (s 4)).link.seq = 7 := by
  decide +kernel

/-- A state in which the packet of a source is in transmission. -/
def sending (source : TxSource) : State := { up with link := { up.link with tx := some ⟨source, []⟩ } }

theorem test_response_sent :
    let s := { sending (.response 2) with rt := { RequestTracker.reset with
      entries := RequestTracker.reset.entries.set 2 (readEntry 4 .complete), order := [1, 2], completion := [2] } }
    (after .responseSent s).rt.order = [1] ∧ (after .responseSent s).rt.completion = [] ∧
      (after .responseSent s).link.nonPosted = ⟨24, 1⟩ := by
  decide +kernel

theorem test_mgmt_reply_sent :
    let s := { sending (.reply 1) with mu := { ManagementUnit.reset with
      slots := #v[.free, .reply (command 1) ⟨.done, []⟩], arrivals := [1], replies := [1] } }
    (after .mgmtReplySent s).mu = ManagementUnit.reset ∧ (after .mgmtReplySent s).link.management = ⟨2, 1⟩ := by
  decide +kernel

theorem test_upstream_transmission_ends : (after .upstreamTransmissionEnds (sending .notice)).link.tx = none := by
  decide +kernel

/-- The local notice port at 7FFF0000H. -/
def portUp : State := { up with mu := { ManagementUnit.reset with portEnable := true, portBase := 0x7FFF000#28 } }

/-- R133: the bytes that a beat does not enable are zero in the notice; R134: words 1 to 3 answer ERROR. -/
theorem test_notice_port_write :
    let w := 0xA1B2C3D4#32
    (after (.noticePortWrite 0x7FFF0000#32 3 w (parityBits w)) portUp).nq = [.word 0x0000C3D4#32] ∧
      (after (.noticePortWrite 0x7FFF000C#32 15 w (parityBits w)) portUp).portAnswer = some ⟨.error, none⟩ := by
  decide +kernel

theorem test_notice_port_read :
    (after (.noticePortRead 0x7FFF0000#32) { portUp with nq := [.word 1, .word 2] }).portAnswer =
      some ⟨.ack, some (3, parityBits 3)⟩ := by
  decide +kernel

/-! ## States that meet the hypotheses of the statements

`busy` is in the middle of a session and of a drain; `halted` holds a FATAL error while the head is on the bus. -/

/-- The entries of `busy`: a strict read behind one write, a failed read, a relaxed read of the new generation. -/
def busyEntry (i : Fin 24) : TrackerEntry :=
  if i = 0 then { readEntry 1 .ordered with generation := 7, writesAhead := 1 }
  else if i = 1 then { readEntry 2 .complete with generation := 7, status := some .targetError }
  else if i = 2 then { readEntry 3 .ready with generation := 8 }
  else TrackerEntry.reset

def busy : State :=
  { State.reset with
    link := { LinkPort.reset with
      state := .up, posted := ⟨30, 1⟩, nonPosted := ⟨21, 0⟩, management := ⟨1, 0⟩, skip := 2, seq := 6 }
    wd := { WindowDecoder.reset with active := exampleBank, generation := 8, commit := .draining, drain := 3 }
    pwq := [record 7 .queued]
    rt := { entries := Vector.ofFn busyEntry, counter := 3, order := [0, 1, 2], completion := [1] }
    ecu := { ErrorCapture.reset with
      record := some ⟨.nonfatal, linkCheckReport⟩, worst := some .nonfatal, stamp := 2, nextErrors := 16, overflow := 1 }
    nq := [.error .nonfatal .unmapped .filled 0, .word 5]
    mu := { ManagementUnit.reset with
      slots := #v[.held (command 3), .free], arrivals := [0], port := .opened }
    pending := [.transmitChoice] }

def halted : State :=
  { up with
    link := { up.link with posted := ⟨31, 0⟩ }
    pwq := [record 0 .active]
    lbe := { LocalBusEngine.reset with
      engine := .owning, current := some .head, accessTimer := some 1024, beat := some ⟨0, .write⟩
      cycle := some ((record 0 .active).item.cycleAt 0) }
    ecu := { ErrorCapture.reset with record := some ⟨.fatal, linkCheckReport⟩, worst := some .fatal, stamp := 1 }
    mu := { ManagementUnit.reset with port := .halted }
    pending := [.retryAnswer] }

theorem busy_entry (i : Fin 24) : busy.rt.entries[i] = busyEntry i := by simp [busy]

theorem halted_entry (i : Fin 24) : halted.rt.entries[i] = TrackerEntry.reset := by revert i; decide +kernel

theorem busy_sound : busy.Sound where
  queue := ⟨by decide, fun r h => by rw [List.mem_singleton.mp h]; unfold WriteRecord.InRange; decide,
    fun r h => absurd h List.not_mem_nil⟩
  tracker := {
    orderNodup := by decide
    orderMem := by decide +kernel
    completionNodup := by decide
    completionMem := by decide +kernel
    entries := fun i => by
      rw [busy_entry]
      by_cases h0 : i = 0
      · subst h0; constructor <;> decide
      · by_cases h1 : i = 1
        · subst h1; constructor <;> decide
        · by_cases h2 : i = 2
          · subst h2; constructor <;> decide
          · simp only [busyEntry, h0, h1, h2, if_false]; constructor <;> decide }
  engine := {
    idleCurrent := by decide
    idleTimer := by decide
    owningBeat := by decide
    owningCycle := by decide
    headActive := ⟨fun h => (by cases h), fun ⟨_, _, h, hs⟩ => (by cases h; cases hs)⟩
    entryActive := by decide +kernel
    headTimer := ⟨fun h => (by cases h), fun ⟨_, _, h, hs⟩ => (by cases h; cases hs)⟩
    entryTimer := by decide +kernel
    streakBound := by decide }
  slots := by constructor <;> decide
  link := ⟨fun h => (by cases h), trivial, by decide, rfl⟩
  credits := fun p => by
    show busy.inUse p + (busy.link.pool p).outstanding + (busy.link.pool p).awaiting = p.capacity
    cases p <;> decide +kernel

theorem halted_sound : halted.Sound where
  queue := ⟨by decide, fun r h => by rw [List.mem_singleton.mp h]; unfold WriteRecord.InRange; decide,
    fun r h => absurd h List.not_mem_nil⟩
  tracker := {
    orderNodup := by decide
    orderMem := by decide +kernel
    completionNodup := by decide
    completionMem := by decide +kernel
    entries := fun i => by rw [halted_entry]; constructor <;> decide }
  engine := {
    idleCurrent := by decide
    idleTimer := by decide
    owningBeat := by decide
    owningCycle := by decide
    headActive := ⟨fun _ => ⟨_, _, rfl, rfl⟩, fun _ => rfl⟩
    entryActive := by decide +kernel
    headTimer := ⟨fun h => (by cases h), fun ⟨_, _, h, hs⟩ => (by cases h; cases hs)⟩
    entryTimer := by decide +kernel
    streakBound := by decide }
  slots := by constructor <;> decide
  link := ⟨fun h => (by cases h), trivial, by decide, rfl⟩
  credits := fun p => by
    show halted.inUse p + (halted.link.pool p).outstanding + (halted.link.pool p).awaiting = p.capacity
    cases p <;> decide +kernel

/-! ## Witnesses: the machine as a whole -/

theorem witness_StepTakesFrontCommand : State.reset.pending = [] := rfl

theorem witness_SoundStatesNeverStop : busy.Sound ∧ halted.Sound := ⟨busy_sound, halted_sound⟩

theorem witness_StepKeepsSound : busy.Sound ∧ ∃ t, step busy = .next t := ⟨busy_sound, _, rfl⟩

theorem busy_drain : busy.DrainExact where
  queueRecent := fun r h => by rw [List.mem_singleton.mp h]; exact Or.inr (by decide)
  trackerRecent := fun i hu => by
    rw [busy_entry] at hu ⊢
    by_cases h0 : i = 0
    · subst h0; exact Or.inr (by decide)
    · by_cases h1 : i = 1
      · subst h1; exact Or.inr (by decide)
      · by_cases h2 : i = 2
        · subst h2; exact Or.inl (by decide)
        · simp only [busyEntry, h0, h1, h2, if_false] at hu
          cases hu
  idleNone := fun h => (by cases h)
  drainCounts := fun _ => by decide +kernel

theorem witness_DrainStaysExact : busy.Sound ∧ busy.DrainExact ∧ ∃ t, step busy = .next t :=
  ⟨busy_sound, busy_drain, _, rfl⟩

theorem witness_HeldCommitStaysDraining : busy.HeldCommitDrains ∧ ∃ t, step busy = .next t :=
  ⟨by unfold State.HeldCommitDrains; decide, _, rfl⟩

theorem witness_BankAndSettingsStayValid :
    busy.ActiveBankValid ∧ busy.SettingsInRange ∧ ∃ t, step busy = .next t :=
  ⟨by unfold State.ActiveBankValid; decide +kernel, by unfold State.SettingsInRange; decide, _, rfl⟩

theorem witness_RecordsAndNoticesStaySound : busy.RecordsSound ∧ busy.NoticesBounded ∧ ∃ t, step busy = .next t :=
  ⟨⟨by decide, by decide, fun h => (by cases h)⟩, ⟨by decide, fun v => by cases v <;> decide⟩, _, rfl⟩

theorem witness_PortStaysGuarded : halted.PortGuarded ∧ halted.ecu.worst = some .fatal ∧ halted.mu.haltOnFatal = true ∧
    ∃ t, step halted = .next t :=
  ⟨fun _ _ => rfl, rfl, rfl, _, rfl⟩

theorem witness_HaltedStaysQuiet : halted.Sound ∧ halted.HaltedQuiet ∧ halted.mu.port = .halted ∧
    ∃ t, step halted = .next t :=
  ⟨halted_sound, fun _ => ⟨by decide, fun r h => by rw [List.mem_singleton.mp h]; rfl, by decide +kernel⟩, rfl, _, rfl⟩

theorem witness_TagsStayDistinct : busy.Sound ∧ busy.TagsDistinct ∧ ∃ t, step busy = .next t :=
  ⟨busy_sound, by unfold State.TagsDistinct; decide +kernel, _, rfl⟩

/-! ## Witnesses: sessions and packets -/

theorem witness_UnmetConditionsChangeNothing :
    State.reset.lbe.engine ≠ .owning ∧ State.reset.lbe.accessTimer = none ∧ State.reset.lbe.headTimer = none ∧
    State.reset.lbe.entryTimers[23] = none ∧ State.reset.lbe.engine ≠ .requesting ∧ halted.lbe.engine ≠ .idle ∧
    State.reset.link.state = .down ∧ (sending .notice).link.tx ≠ none ∧
    (∀ i, (sending .notice).link.txSource ≠ some (.response i)) ∧
    (∀ k, (sending .notice).link.txSource ≠ some (.reply k)) ∧ (sending (.reply 1)).link.txSource ≠ some .credit ∧
    (sending (.reply 1)).link.txSource ≠ some .notice ∧
    (∀ k ∈ busy.mu.arrivals, busy.mu.slots[k].waitingRequest = none) ∧
    (waiting (command 1)).Executes 0 (command 1) ∧ Instr.closePort ≠ (command 1).instr ∧
    (command 1).kind ≠ .mgmtWrite :=
  ⟨by decide, rfl, rfl, by decide, by decide, by decide, rfl, by decide, fun i => by simp [sending, LinkPort.txSource],
    fun k => by simp [sending, LinkPort.txSource], by decide, by decide, by decide, waiting_executes _, by decide,
    by decide⟩

theorem witness_LinkUpGrantsFreeCounts : State.reset.link.state = .down ∧ up.link.state = .up := ⟨rfl, rfl⟩

/-- IDLE; a drain of three of which two items are freed; a drain of just those two. -/
theorem witness_LossOfSignalEndsSession :
    State.reset.link.state = .down ∧ (busy.link.state = .up ∧ busy.TrackerSound ∧ busy.wd.commit = .draining) ∧
    (busy.rt.order.filter fun i =>
      busy.rt.entries[i].state != .active && busy.rt.entries[i].generation != busy.wd.generation).length = 2 ∧
    2 < busy.wd.drain ∧ ({ busy.wd with drain := 2 } : WindowDecoder).drain = 2 ∧ up.link.state = .up ∧
    up.wd.commit = .idle :=
  ⟨rfl, ⟨rfl, busy_sound.tracker, rfl⟩, by decide +kernel, by decide, rfl, rfl, rfl⟩

theorem witness_DamagedPacketEndsSession :
    State.reset.link.state = .down ∧ up.link.state = .up ∧ (¬∃ h data, PacketReceived [] h data) ∧
    ¬∃ h data, PacketReceived [0, 0, 0] h data :=
  ⟨rfl, rfl, fun ⟨_, _, hp⟩ => (by cases hp.readPacket),
    fun ⟨h, data, hp⟩ => by
      have h0 : readPacket [0, 0, 0] = none := by decide +kernel
      exact absurd (h0.symm.trans hp.readPacket) (by simp)⟩

/-- A code of no downstream kind, a pool with no grant, and a length of 0. -/
theorem witness_DiscardedPacketsAreReported :
    upOpen.link.state = .up ∧
    PacketReceived (packet 0x00010000#32 0 []) (Header.read 0x00010000#32 0) [] ∧
    DownstreamKind.ofCode (Header.read 0x00010000#32 0).kindCode = none ∧
    PacketReceived (packet 0x10000000#32 0 []) (Header.read 0x10000000#32 0) [] ∧
    DownstreamKind.ofCode (Header.read 0x10000000#32 0).kindCode = some (.data .writePosted) ∧
    ({ up with link := { up.link with posted := ⟨0, 32⟩ } } : State).link.posted.outstanding = 0 ∧
    upOpen.link.posted.outstanding ≠ 0 ∧
    formWellFormed (.data .writePosted) (Header.read 0x10000000#32 0) [] = false :=
  ⟨rfl, packet_received _ _ _, by decide, packet_received _ _ _, by decide, rfl, by decide, by decide⟩

/-- The premises of a posted write packet whose decode has the outcome `o`. -/
def PostedPremises (s : State) (w0 w1 : Word) (data : List Word) (o : DecodeOutcome) : Prop :=
  s.link.state = .up ∧ PacketReceived (packet w0 w1 data) (Header.read w0 w1) data ∧
    (Header.read w0 w1).kindCode = 1 ∧ s.link.posted.outstanding ≠ 0 ∧
    formWellFormed (.data .writePosted) (Header.read w0 w1) data = true ∧
    decode s.mu.port s.wd.active ((Header.read w0 w1).dataRequest .writePosted data) = o

/-- The last grant and the last place are enough. -/
theorem witness_PostedWriteAppended :
    let s := { upOpen with link := { upOpen.link with posted := ⟨1, 0⟩ }, pwq := List.replicate 31 (record 7 .queued) }
    PostedPremises s 0x1001F000#32 0x40000100#32 [1] (.accepted (placementAt exampleBank 1 0x10000040#30) .strict) ∧
      s.pwq.length < 32 :=
  ⟨⟨rfl, packet_received _ _ _, by decide, by decide, by decide, by decide +kernel⟩, by decide⟩

theorem witness_PostedWriteDiscarded :
    PostedPremises { upOpen with mu := { upOpen.mu with port := .halted } } 0x1001F000#32 0x40000100#32 [1] .halted ∧
    PostedPremises { upOpen with mu := { upOpen.mu with port := .closed } } 0x1001F000#32 0x40000100#32 [1] .closed ∧
    PostedPremises upOpen 0x1001F000#32 0x50000000#32 [1] .unmatched ∧
    PostedPremises upOpen 0x1002FF00#32 0x400FFFFC#32 [1, 2]
      (.notContained (placementAt exampleBank 1 0x1003FFFF#30)) ∧
    PostedPremises upOpen 0x1001F000#32 0x40010020#32 [1] (.denied (placementAt exampleBank 0 0x10004008#30)) ∧
    PostedPremises upOpen 0x1001F000#32 0x40100040#32 [1] (.postingRefused (placementAt exampleBank 2 0x10040010#30)) :=
  ⟨⟨rfl, packet_received _ _ _, by decide, by decide, by decide, by decide +kernel⟩,
    ⟨rfl, packet_received _ _ _, by decide, by decide, by decide, by decide +kernel⟩,
    ⟨rfl, packet_received _ _ _, by decide, by decide, by decide, by decide +kernel⟩,
    ⟨rfl, packet_received _ _ _, by decide, by decide, by decide, by decide +kernel⟩,
    ⟨rfl, packet_received _ _ _, by decide, by decide, by decide, by decide +kernel⟩,
    ⟨rfl, packet_received _ _ _, by decide, by decide, by decide, by decide +kernel⟩⟩

/-- The premises of a READ or WRITE_CONFIRMED packet up to its tag check. -/
def NonPostedPremises (s : State) (w0 w1 : Word) (data : List Word) (k : DataKind) : Prop :=
  s.link.state = .up ∧ PacketReceived (packet w0 w1 data) (Header.read w0 w1) data ∧
    DownstreamKind.ofCode (Header.read w0 w1).kindCode = some (.data k) ∧ k ≠ .writePosted ∧
    s.link.nonPosted.outstanding ≠ 0 ∧ formWellFormed (.data k) (Header.read w0 w1) data = true

theorem witness_NonPostedAllocated :
    NonPostedPremises upOpen 0x30A1F000#32 0x40000100#32 [] .read ∧ upOpen.tagInUse 5 = false ∧
    (∃ i : Fin 24, upOpen.rt.entries[i].state = .free) ∧
    decode upOpen.mu.port upOpen.wd.active ((Header.read 0x30A1F000#32 0x40000100#32).dataRequest .read []) =
      .accepted (placementAt exampleBank 1 0x10000040#30) .strict ∧
    NonPostedPremises upOpen 0x20A1F000#32 0x40100040#32 [1] .writeConfirmed ∧
    decode upOpen.mu.port upOpen.wd.active ((Header.read 0x20A1F000#32 0x40100040#32).dataRequest .writeConfirmed [1]) =
      .accepted (placementAt exampleBank 2 0x10040010#30) .relaxed :=
  ⟨⟨rfl, packet_received _ _ _, by decide, by decide, by decide, by decide⟩, by decide +kernel, ⟨0, by decide⟩,
    by decide +kernel, ⟨rfl, packet_received _ _ _, by decide, by decide, by decide, by decide⟩, by decide +kernel⟩

/-- The named entry FREE, and (in `busy`) the named entry 0 in use; each outcome but POSTING_REFUSED, which no non-posted
request has. -/
theorem witness_NonPostedRefused :
    NonPostedPremises upOpen 0x30A1F000#32 0x50000000#32 [] .read ∧ upOpen.tagInUse 5 = false ∧
    upOpen.rt.entries[23].state = .free ∧
    (NonPostedPremises busy 0x30A1F000#32 0x50000000#32 [] .read ∧ busy.tagInUse 5 = false ∧
      busy.rt.entries[0].state ≠ .free ∧ busy.rt.entries[23].state = .free) ∧
    decode .closed upOpen.wd.active ((Header.read 0x30A1F000#32 0x50000000#32).dataRequest .read []) = .closed ∧
    decode .halted upOpen.wd.active ((Header.read 0x30A1F000#32 0x50000000#32).dataRequest .read []) = .halted ∧
    decode .opened upOpen.wd.active ((Header.read 0x30A1F000#32 0x50000000#32).dataRequest .read []) = .unmatched ∧
    NonPostedPremises upOpen 0x30A2FF00#32 0x400FFFFC#32 [] .read ∧
    decode .opened upOpen.wd.active ((Header.read 0x30A2FF00#32 0x400FFFFC#32).dataRequest .read []) =
      .notContained (placementAt exampleBank 1 0x1003FFFF#30) ∧
    NonPostedPremises upOpen 0x30A1F000#32 0x40010020#32 [] .read ∧
    decode .opened upOpen.wd.active ((Header.read 0x30A1F000#32 0x40010020#32).dataRequest .read []) =
      .denied (placementAt exampleBank 0 0x10004008#30) :=
  ⟨⟨rfl, packet_received _ _ _, by decide, by decide, by decide, by decide⟩, by decide +kernel, by decide,
    ⟨⟨rfl, packet_received _ _ _, by decide, by decide, by decide, by decide⟩, by decide +kernel, by decide, by decide⟩,
    rfl, rfl, by decide +kernel, ⟨rfl, packet_received _ _ _, by decide, by decide, by decide, by decide⟩,
    by decide +kernel, ⟨rfl, packet_received _ _ _, by decide, by decide, by decide, by decide⟩, by decide +kernel⟩

theorem witness_TagInUseDiscarded :
    NonPostedPremises busy 0x3061F000#32 0x40000100#32 [] .read ∧ busy.rt.entries[2].state ≠ .free ∧
    busy.rt.entries[2].orphan = false ∧
    busy.rt.entries[2].tag = (Header.read 0x3061F000#32 0x40000100#32).tag :=
  ⟨⟨rfl, packet_received _ _ _, by decide, by decide, by decide, by decide⟩, by decide, by decide, by decide⟩

/-- Slot 0 free, and slot 1 with slot 0 occupied. -/
theorem witness_ManagementRequestTaken :
    PacketReceived (packet 0x40010000#32 0 []) (Header.read 0x40010000#32 0) [] ∧
    DownstreamKind.ofCode (Header.read 0x40010000#32 0).kindCode = some (.mgmt .mgmtRead) ∧
    formWellFormed (.mgmt .mgmtRead) (Header.read 0x40010000#32 0) [] = true ∧
    up.link.state = .up ∧ up.link.management.outstanding ≠ 0 ∧ up.mu.slots[0] = .free ∧
    busy.link.state = .up ∧ busy.link.management.outstanding ≠ 0 ∧ busy.mu.slots[0] ≠ .free ∧
    busy.mu.slots[1] = .free :=
  ⟨packet_received _ _ _, by decide, by decide, rfl, by decide, by decide, rfl, by decide, by decide, by decide⟩

/-- No window; the first and the last byte of a window; a window of the whole link space. -/
theorem witness_DecodeFollowsItsTests :
    let holds (e : WindowEntry) (byte : Nat) : Prop :=
      e.sizeCode.toNat ≤ 20 ∧ e.linkBase.toNat * 4096 ≤ byte ∧
        byte < e.linkBase.toNat * 4096 + 4096 * 2 ^ e.sizeCode.toNat
    (∀ i : Fin 16, exampleBank[i].enabled = true → ¬holds exampleBank[i] 0x50000000) ∧
    exampleBank[2].enabled = true ∧ holds exampleBank[2] 0x40100000 ∧ holds exampleBank[2] 0x4010FFFC ∧
    ¬holds exampleBank[2] 0x40110000 ∧
    (∀ j : Fin 16, j < 2 → exampleBank[j].enabled = true → ¬holds exampleBank[j] 0x40100000) ∧
    holds (window 20 0 0 3 true .strict .noSwap) 0 ∧ holds (window 20 0 0 3 true .strict .noSwap) 0xFFFFFFFC ∧
    exampleBank[2].translationBase.toNat * 4096 + 4096 * 2 ^ exampleBank[2].sizeCode.toNat ≤ 2 ^ 32 := by
  decide +kernel

/-! ## Witnesses: management -/

/-- The last object of the map is read, and the index after it is in no object; a record that is EMPTY and one that is
FULL. -/
theorem witness_ReadReturnsObjectValues :
    (waiting (mgmt .mgmtRead 0x23F 1 [])).Executes 0 (mgmt .mgmtRead 0x23F 1 []) ∧
    (mgmt .mgmtRead 0x23F 1 []).manager = true ∧
    (List.range 1).map (fun n => objectAt (0x23F + n)) = [ObjectId.active 15 3].map some ∧
    (waiting (mgmt .mgmtRead 0x23F 2 [])).Executes 0 (mgmt .mgmtRead 0x23F 2 []) ∧ objectAt (0x23F + 1) = none ∧
    State.reset.ecu.record = none ∧ busy.ecu.record = some ⟨.nonfatal, linkCheckReport⟩ :=
  ⟨waiting_executes _, rfl, by decide, waiting_executes _, by decide, rfl, rfl⟩

/-- The first word fails, the second word fails, and no word fails. -/
theorem witness_WriteIsAllOrNothing :
    (waiting (mgmt .mgmtWrite 3 2 [0x00011404#32, 0])).Executes 0 (mgmt .mgmtWrite 3 2 [0x00011404#32, 0]) ∧
    writeFault 3 0 = some .badValue ∧ writeFault 3 0x00011404#32 = none ∧ writeFault 4 0 = none ∧
    writeFault 5 0 = some .readOnly ∧ writeFault 6 0 = some .badObject ∧
    (List.range 2).map (fun n => objectAt (3 + n)) = [ObjectId.policy, ObjectId.noticePort].map some :=
  ⟨waiting_executes _, by decide, by decide, by decide, by decide, by decide, by decide⟩

theorem witness_EnablingHaltOnFatalHalts :
    let s (r : MgmtRequest) : State := { waiting r with mu := { (waiting r).mu with haltOnFatal := false } }
    (s (mgmt .mgmtWrite 3 1 [0x00011404#32])).Executes 0 (mgmt .mgmtWrite 3 1 [0x00011404#32]) ∧
    writeFault 3 0x00011404#32 = none ∧ writeFault 3 0x00010404#32 = none ∧
    ((s (mgmt .mgmtWrite 3 1 [0x00011404#32])).writeObjects [(.policy, 0x00011404#32)]).mu.haltOnFatal = true ∧
    ((s (mgmt .mgmtWrite 3 1 [0x00010404#32])).writeObjects [(.policy, 0x00010404#32)]).mu.haltOnFatal = false :=
  ⟨⟨rfl, rfl, [], [], rfl, fun _ h => absurd h List.not_mem_nil⟩, by decide, by decide, by decide, by decide⟩

theorem witness_NonManagerDenied :
    (waiting { command 1 with manager := false }).Executes 0 { command 1 with manager := false } ∧
    ({ command 1 with manager := false } : MgmtRequest).manager = false :=
  ⟨waiting_executes _, rfl⟩

theorem command_executes (code : WordAddress) : (waiting (command code)).ExecutesCommand 0 (command code) code :=
  ⟨waiting_executes _, rfl, rfl, rfl⟩

/-- The same request with another port, error unit, or Window Decoder. -/
theorem command_executes_in (code : WordAddress) (p : PortState) (u : ErrorCapture) (d : WindowDecoder)
    (q : List WriteRecord) (b : LocalBusEngine) :
    State.ExecutesCommand { waiting (command code) with
      mu := { (waiting (command code)).mu with port := p }, ecu := u, wd := d, pwq := q, lbe := b }
      0 (command code) code :=
  ⟨⟨rfl, rfl, [], [], rfl, fun _ h => absurd h List.not_mem_nil⟩, rfl, rfl, rfl⟩

/-- One port state for each clause; a HALTED port with and without a FATAL error held. -/
theorem witness_OpenAndCloseFollowPortState (p : PortState) :
    (∃ s : State, s.ExecutesCommand 0 (command 1) 1 ∧ s.mu.port = p ∧
      (s.ecu.worst = some .fatal ∧ s.mu.haltOnFatal = true)) ∧
    (∃ s : State, s.ExecutesCommand 0 (command 1) 1 ∧ s.mu.port = p ∧
      ¬(s.ecu.worst = some .fatal ∧ s.mu.haltOnFatal = true)) ∧
    ∃ s : State, s.ExecutesCommand 0 (command 2) 2 ∧ s.mu.port = p :=
  ⟨⟨_, command_executes_in 1 p { ErrorCapture.reset with worst := some .fatal } .reset [] .reset, rfl, rfl, rfl⟩,
    ⟨_, command_executes_in 1 p .reset .reset [] .reset, rfl, fun h => (by cases h.1)⟩,
    ⟨_, command_executes_in 2 p .reset .reset [] .reset, rfl⟩⟩

/-- DRAINING; an entry that is rejected, the last one; a valid bank with nothing and with one record in flight. -/
theorem witness_CommitSwapsOrRefuses :
    (∃ s : State, s.ExecutesCommand 0 (command 3) 3 ∧ s.wd.commit = .draining) ∧
    (∃ s : State, s.ExecutesCommand 0 (command 3) 3 ∧ s.wd.commit = .idle ∧
      s.wd.staging[(15 : Fin 16)].rejected = some .badSize ∧
      ∀ j : Fin 16, j < 15 → s.wd.staging[j].rejected = none) ∧
    (∃ s : State, s.ExecutesCommand 0 (command 3) 3 ∧ s.wd.commit = .idle ∧
      (∀ j : Fin 16, s.wd.staging[j].rejected = none) ∧ s.pwq.length + s.inUseCount = 0) ∧
    ∃ s : State, s.ExecutesCommand 0 (command 3) 3 ∧ s.wd.commit = .idle ∧
      (∀ j : Fin 16, s.wd.staging[j].rejected = none) ∧ s.pwq.length + s.inUseCount ≠ 0 :=
  ⟨⟨_, command_executes_in 3 .closed .reset { WindowDecoder.reset with commit := .draining } [] .reset, rfl⟩,
    ⟨_, command_executes_in 3 .closed .reset { WindowDecoder.reset with
      staging := Bank.reset.set 15 (window 21 0 0 0 false .strict .noSwap) } [] .reset, rfl, by decide +kernel,
      by decide +kernel⟩,
    ⟨_, command_executes_in 3 .closed .reset { WindowDecoder.reset with staging := exampleBank } [] .reset, rfl,
      by decide +kernel, by decide +kernel⟩,
    ⟨_, command_executes_in 3 .closed .reset { WindowDecoder.reset with staging := exampleBank } [record 0 .queued]
      .reset, rfl, by decide +kernel, by decide +kernel⟩⟩

/-- Each outcome of validation; size codes 20 and 21, and a link range that ends with the link space. -/
theorem witness_ValidationConditions :
    WindowEntry.reset.enabled = false ∧ (window 21 0 0 0 false .strict .noSwap).rejected = some .badSize ∧
    (window 20 0 0 0 false .strict .noSwap).rejected = none ∧
    (window 0 0xFFFFF#20 0xFFFFF#20 0 false .strict .noSwap).rejected = none ∧
    (window 1 0xFFFFF#20 0 0 false .strict .noSwap).rejected = some .beyondSpace ∧
    (window 1 1 0 0 false .strict .noSwap).rejected = some .misalignedBase ∧
    (window 1 2 1 0 false .strict .noSwap).rejected = some .misalignedTranslation ∧
    (window 1 2 2 0 false .strict .invalid).rejected = some .badCode := by
  decide +kernel

theorem witness_DiscardStagingCopiesActive : (waiting (command 4)).ExecutesCommand 0 (command 4) 4 :=
  command_executes 4

/-- No parameter word; the current stamp under ones in the upper half; another stamp. -/
theorem witness_ClearErrorsNeedsStamp :
    (waiting (command 5)).ExecutesCommand 0 (command 5) 5 ∧ (command 5).data = [] ∧
    (∀ w : Word, (waiting (mgmt .mgmtCommand 5 1 [w])).ExecutesCommand 0 (mgmt .mgmtCommand 5 1 [w]) 5) ∧
    (0xFFFF0000#32).extractLsb' 0 16 = ErrorCapture.reset.stamp ∧
    (0x00000001#32).extractLsb' 0 16 ≠ ErrorCapture.reset.stamp :=
  ⟨command_executes 5, rfl, fun _ => ⟨waiting_executes _, rfl, rfl, rfl⟩, by decide, by decide⟩

theorem witness_ResetPartKeepsRecords :
    ((waiting (command 6)).ExecutesCommand 0 (command 6) 6 ∧ (waiting (command 6)).lbe.engine = .idle) ∧
    (∃ s : State, s.ExecutesCommand 0 (command 6) 6 ∧ s.lbe.engine ≠ .idle) ∧
    (∃ s : State, s.mu.resetPending = true ∧ s.lbe.engine = .idle) ∧
    State.reset.mu.resetPending = false :=
  ⟨⟨command_executes 6, rfl⟩,
    ⟨_, command_executes_in 6 .closed .reset .reset [] { LocalBusEngine.reset with engine := .requesting }, by decide⟩,
    ⟨{ State.reset with mu := { ManagementUnit.reset with resetPending := true } }, rfl, rfl⟩, rfl⟩

/-- The codes next to the six that name commands. -/
theorem witness_UnknownCodeAnsweredBadValue :
    (waiting (command 0)).ExecutesCommand 0 (command 0) 0 ∧ (waiting (command 7)).ExecutesCommand 0 (command 7) 7 ∧
    6 < (7 : WordAddress).toNat :=
  ⟨command_executes 0, command_executes 7, by decide⟩

/-- Each read-write object, at the least values of its fields and at all ones. -/
theorem witness_ObjectsReadBack :
    (∀ p : ObjectId × Word, p ∈ [(.busTiming, 0x00010001#32), (.busTiming, 0xFFFFFFFF#32), (.policy, 0x00010101#32),
        (.policy, 0xFFFFFFFF#32), (.noticePort, 0#32), (.recordMask, 0xFFFFFFFF#32), (.severityMap, 0x02AAAAAA#32),
        (.severityMap, 0#32), (.notifyEnables, 0xFFFFFFFF#32), (.staging 15 0, 0xFFFFFFFF#32),
        (.staging 0 1, 0xFFFFFFFF#32), (.staging 0 2, 0#32), (.staging 0 3, 0xFFFFFFFF#32)] →
      p.1.writable = true ∧ p.1.inRange p.2 = true) ∧
    ObjectId.staging 15 1 ≠ .staging 15 0 ∧ ObjectId.active 15 0 ≠ .staging 15 0 := by
  decide +kernel

/-! ## Witnesses: the local bus -/

/-- The head and READY entry 6 offered in the ways that the four clauses name; the streak one below its limit, and at it. -/
def offers (head : Bool) (entry : Bool) (streak : Nat) : State :=
  { State.reset with
    pwq := if head then [record 0 .queued] else []
    lbe := { LocalBusEngine.reset with streak := streak }
    rt := { RequestTracker.reset with
      entries := RequestTracker.reset.entries.set 6 (readEntry 6 (if entry then .ready else .complete)), order := [6] } }

theorem offers_head (e : Bool) (n : Nat) : (offers true e n).HeadOffered := ⟨rfl, _, _, rfl, rfl⟩

theorem offers_no_head (e : Bool) (n : Nat) : ¬(offers false e n).HeadOffered :=
  fun ⟨_, _, _, h, _⟩ => by cases h

theorem offers_entry (h : Bool) (n : Nat) : (offers h true n).ReadyOffered 6 :=
  ⟨rfl, by simp [offers, readEntry], [], [], rfl, fun _ h => absurd h List.not_mem_nil⟩

theorem offers_no_entry (h : Bool) (n : Nat) (i : Fin 24) : ¬(offers h false n).ReadyOffered i := by
  rw [← State.readyOffered_eq_some_iff]
  cases h <;> exact fun hc => by cases hc

theorem witness_DecisionFollowsFairness :
    ((offers true false 0).HeadOffered ∧ ∀ i, ¬(offers true false 0).ReadyOffered i) ∧
    ((offers true true 3).HeadOffered ∧ (offers true true 3).ReadyOffered 6 ∧
      (offers true true 3).lbe.streak < (offers true true 3).mu.fairness.toNat) ∧
    ((offers true true 4).ReadyOffered 6 ∧
      (offers true true 4).mu.fairness.toNat ≤ (offers true true 4).lbe.streak) ∧
    ((offers false true 0).ReadyOffered 6 ∧ ¬(offers false true 0).HeadOffered) ∧
    (¬(offers false false 0).HeadOffered ∧ ∀ i, ¬(offers false false 0).ReadyOffered i) ∧
    ∀ h e n, (offers h e n).lbe.engine = .idle :=
  ⟨⟨offers_head _ _, offers_no_entry _ _⟩, ⟨offers_head _ _, offers_entry _ _, by decide⟩, ⟨offers_entry _ _, by decide⟩,
    ⟨offers_entry _ _, offers_no_head _ _⟩, ⟨offers_no_head _ _, offers_no_entry _ _⟩, fun _ _ _ => rfl⟩

/-- The engine with the head as its item; the head's progress and retry count as given. -/
def headBus (e : EngineState) (progress retries : Nat) : State :=
  { State.reset with
    pwq := [{ record 0 .active with progress := progress, retryCount := retries }]
    lbe := { LocalBusEngine.reset with
      engine := e, current := some .head, accessTimer := some 1024
      beat := if e = .owning then some ⟨progress, .write⟩ else none
      cycle := if e = .owning then some ((record 0 .active).item.cycleAt progress) else none } }

/-- The engine with entry 3 as its item. -/
def entryBus (e : EngineState) (x : TrackerEntry) : State :=
  { busOf e x.progress [] with rt := { RequestTracker.reset with
      entries := RequestTracker.reset.entries.set 3 x, order := [3] } }

/-- A write to two words. -/
def writeEntry (progress : Nat) : TrackerEntry :=
  { readEntry 4 .active with kind := .writeConfirmed, data := [1, 2], progress := progress }

theorem entryBus_entry (e : EngineState) (x : TrackerEntry) : (entryBus e x).rt.entries[(3 : Fin 24)] = x := by
  simp [entryBus]

theorem headBus_beat (p n : Nat) : (headBus .owning p n).BeatOf .head := ⟨rfl, rfl, rfl⟩

theorem entryBus_beat (x : TrackerEntry) : (entryBus .owning x).BeatOf (.entry 3) := ⟨rfl, rfl, rfl⟩

theorem witness_GrantBeginsFirstCycle :
    (headBus .requesting 0 0).lbe.engine = .requesting ∧ (headBus .requesting 0 0).currentItem.isSome = true ∧
    (headBus .requesting 0 0).lbe.current = some .head ∧ (headBus .requesting 0 0).pwq = [record 0 .active] ∧
    (entryBus .requesting (tag12 4 [])).lbe.engine = .requesting ∧
    (entryBus .requesting (tag12 4 [])).currentItem.isSome = true ∧
    (entryBus .requesting (tag12 4 [])).lbe.current = some (.entry 3) ∧ (tag12 4 []).placement.isSome = true :=
  ⟨rfl, by decide, rfl, rfl, rfl, by decide, rfl, rfl⟩

/-- The first word of a write of two words, without burst. -/
def singleBus : State :=
  let r := { record 0 .active with placement := { place1 with burstAllowed := false } }
  { headBus .owning 0 0 with
    pwq := [r], lbe := { (headBus .owning 0 0).lbe with cycle := some (r.item.cycleAt 0) } }

/-- Each kind of item, at the last word but one; a burst of two beats, and a cycle of one. -/
theorem witness_AckAdvancesItem :
    ((headBus .owning 0 0).BeatOf .head ∧ (headBus .owning 0 0).lbe.cycle.isSome = true ∧
      (headBus .owning 0 0).currentItem = some (record 0 .active).item ∧
      (record 0 .active).item.progress + 1 < (record 0 .active).item.length) ∧
    ((entryBus .owning (writeEntry 0)).BeatOf (.entry 3) ∧ (writeEntry 0).kind = .writeConfirmed ∧
      (writeEntry 0).item.isSome = true ∧ (writeEntry 0).progress + 1 < (writeEntry 0).length) ∧
    ((entryBus .owning (tag12 3 [0, 0, 0])).BeatOf (.entry 3) ∧ (tag12 3 [0, 0, 0]).kind = .read ∧
      (tag12 3 [0, 0, 0]).item.isSome = true ∧ (tag12 3 [0, 0, 0]).progress + 1 < (tag12 3 [0, 0, 0]).length) ∧
    (entryBus .owning (tag12 3 [0, 0, 0])).lbe.cycle.map Cycle.beats = some 2 ∧
    (singleBus.BeatOf .head ∧ singleBus.lbe.cycle.map Cycle.beats = some 1 ∧
      ∃ it : Item, singleBus.currentItem = some it ∧ it.progress + 1 < it.length) :=
  ⟨⟨headBus_beat _ _, rfl, rfl, by decide⟩, ⟨entryBus_beat _, rfl, rfl, by decide⟩,
    ⟨entryBus_beat _, rfl, rfl, by decide⟩, by decide, ⟨rfl, rfl, rfl⟩, by decide, _, rfl, by decide⟩

theorem witness_LastAckRetiresHead : (headBus .owning 1 0).BeatOf .head ∧
    (headBus .owning 1 0).pwq = [{ record 0 .active with progress := 1, retryCount := 0 }] ∧
    1 + 1 = (record 0 .active).length :=
  ⟨headBus_beat _ _, rfl, rfl⟩

/-- A confirmed write; a read with clean parity and no mark; a read whose last beat has a wrong parity bit. -/
theorem witness_LastAckCompletesEntry :
    ((entryBus .owning (writeEntry 1)).BeatOf (.entry 3) ∧ (writeEntry 1).orphan = false ∧
      (writeEntry 1).placement = some place1 ∧ (writeEntry 1).progress + 1 = (writeEntry 1).length) ∧
    ((entryBus .owning (tag12 4 [])).BeatOf (.entry 3) ∧ (tag12 4 []).orphan = false ∧
      (tag12 4 []).placement.isSome = true ∧ (tag12 4 []).progress + 1 = (tag12 4 []).length ∧
      parityError (swapEnables .swap16 (tag12 4 []).lastMask) 0 0 = false ∧
      (entryBus .owning (tag12 4 [])).lbe.parityMarks[(3 : Fin 24)] = false ∧
      parityError (swapEnables .swap16 (tag12 4 []).lastMask) 0 0b1000#4 = true) :=
  ⟨⟨entryBus_beat _, rfl, rfl, by decide⟩, entryBus_beat _, rfl, rfl, by decide, by decide, by decide, by decide⟩

/-- An orphan whose read, whose write, whose retry (at the limit) and whose failure end its transaction. -/
theorem witness_OrphanEndsUnanswered :
    let orphan (e : TrackerEntry) : TrackerEntry := { e with orphan := true }
    ((entryBus .owning (orphan (writeEntry 1))).rt.entries[(3 : Fin 24)] = orphan (writeEntry 1) ∧
      (orphan (writeEntry 1)).placement = some place1 ∧
      (entryBus .owning (orphan (writeEntry 1))).BeatOf (.entry 3) ∧ (writeEntry 1).progress + 1 = 2) ∧
    ((entryBus .owning (orphan (tag12 4 []))).BeatOf (.entry 3) ∧ (tag12 4 []).progress + 1 = (tag12 4 []).length ∧
      parityError (swapEnables .swap16 (tag12 4 []).lastMask) 0 0 = false ∧
      (entryBus .owning (orphan (tag12 4 []))).lbe.parityMarks[(3 : Fin 24)] = false ∧
      parityError (swapEnables .swap16 (tag12 4 []).lastMask) 0 0b1000#4 = true) ∧
    7 + 1 ≤ (entryBus .owning { orphan (tag12 0 []) with retryCount := 7 }).mu.retryLimit.toNat ∧
    (entryBus .owning (orphan (tag12 0 []))).FailsWith .errorAnswer (.entry 3) 0 .targetError :=
  ⟨⟨entryBus_entry _ _, rfl, entryBus_beat _, rfl⟩,
    ⟨entryBus_beat _, by decide, by decide, by decide, by decide⟩, by decide, Or.inl ⟨rfl, rfl, entryBus_beat _⟩⟩

/-- The retry count reaches the limit of 8, with the port CLOSED and with it HALTED. -/
theorem witness_RetryWithinLimit :
    ((headBus .owning 0 7).BeatOf .head ∧ 7 + 1 ≤ (headBus .owning 0 7).mu.retryLimit.toNat ∧
      (headBus .owning 0 7).mu.port ≠ .halted) ∧
    (halted.BeatOf .head ∧ halted.pwq = [record 0 .active] ∧
      (record 0 .active).retryCount + 1 ≤ halted.mu.retryLimit.toNat ∧ halted.mu.port = .halted) ∧
    ((entryBus .owning { tag12 0 [] with retryCount := 7 }).BeatOf (.entry 3) ∧
      (tag12 0 []).placement.isSome = true ∧ (tag12 0 []).orphan = false ∧
      (entryBus .owning (tag12 0 [])).mu.port ≠ .halted) ∧
    State.BeatOf { entryBus .owning (tag12 0 []) with mu := { ManagementUnit.reset with port := .halted } } (.entry 3) :=
  ⟨⟨headBus_beat _ _, by decide, by decide⟩, ⟨⟨rfl, rfl, rfl⟩, rfl, by decide, rfl⟩,
    ⟨entryBus_beat _, rfl, rfl, by decide⟩, rfl, rfl, rfl⟩

/-- The three failures of the head: an ERROR, an expiry before the grant, and a retry one beyond the limit. -/
theorem witness_FailedHeadRetiresThenReports :
    (headBus .owning 0 0).FailsWith .errorAnswer .head 0 .targetError ∧
    (headBus .requesting 0 0).FailsWith .localAccessTimerExpiry .head 0 .timeout ∧
    (headBus .owning 0 8).FailsWith .retryAnswer .head 8 .retryLimit :=
  ⟨Or.inl ⟨rfl, rfl, headBus_beat _ _⟩, Or.inr (Or.inl ⟨rfl, rfl, rfl, rfl⟩),
    Or.inr (Or.inr ⟨rfl, rfl, headBus_beat _ _, by decide⟩)⟩

theorem witness_FailedEntryCompletesThenReports :
    (entryBus .owning (tag12 0 [])).FailsWith .errorAnswer (.entry 3) 0 .targetError ∧
    (entryBus .requesting (tag12 0 [])).FailsWith .localAccessTimerExpiry (.entry 3) 0 .timeout ∧
    (entryBus .owning { tag12 0 [] with retryCount := 8 }).FailsWith .retryAnswer (.entry 3) 8 .retryLimit ∧
    (tag12 0 []).placement.isSome = true ∧ (tag12 0 []).orphan = false :=
  ⟨Or.inl ⟨rfl, rfl, entryBus_beat _⟩, Or.inr (Or.inl ⟨rfl, rfl, rfl, rfl⟩),
    Or.inr (Or.inr ⟨rfl, rfl, entryBus_beat _, by decide⟩), rfl, rfl⟩

theorem witness_BackoffExpiryOffersAgain :
    let h : State := { State.reset with
      pwq := [record 0 .backoff], lbe := { LocalBusEngine.reset with headTimer := some 8 } }
    let e : State := { State.reset with
      rt := { RequestTracker.reset with entries := RequestTracker.reset.entries.set 23 (readEntry 1 .backoff) }
      lbe := { LocalBusEngine.reset with entryTimers := LocalBusEngine.reset.entryTimers.set 23 (some 8) } }
    h.lbe.headTimer.isSome = true ∧ h.pwq = [record 0 .backoff] ∧ (record 0 .backoff).state = .backoff ∧
      e.lbe.entryTimers[(23 : Fin 24)].isSome = true ∧ e.rt.entries[(23 : Fin 24)].state = .backoff :=
  ⟨rfl, rfl, rfl, by decide, by decide⟩

/-! ## Witnesses: the upstream link and the notice port -/

/-- A state with the candidates given and a skip count. -/
def candidates (credit : Nat) (reply notice response : Bool) (skip : Nat) : State :=
  { up with
    link := { up.link with management := ⟨2, credit⟩, skip := skip }
    mu := { ManagementUnit.reset with
      slots := #v[.free, if reply then .reply (command 1) ⟨.done, []⟩ else .free], replies := if reply then [1] else [] }
    nq := if notice then [.word 1] else []
    rt := { RequestTracker.reset with completion := if response then [23] else [] } }

/-- Every candidate stands; then all but the credit, and so on; the skip count below 4 and at it. -/
theorem witness_TransmitChoiceFollowsPreference :
    (∀ a b c d n, (candidates a b c d n).link.state = .up ∧ (candidates a b c d n).link.tx = none) ∧
    (candidates 1 true true true 4).link.management.awaiting ≠ 0 ∧
    (∃ s : State, s = candidates 0 true true true 4 ∧
      ¬(s.link.posted.awaiting ≠ 0 ∨ s.link.nonPosted.awaiting ≠ 0 ∨ s.link.management.awaiting ≠ 0) ∧
      s.mu.replies = [1] ∧ s.mu.slots[(1 : Fin 2)] = .reply (command 1) ⟨.done, []⟩) ∧
    (∃ s : State, s = candidates 0 false true true 4 ∧
      s.mu.replies = [] ∧ s.nq = [.word 1] ∧ s.rt.completion = [23] ∧ s.link.skip = 4) ∧
    (∃ s : State, s = candidates 0 false true true 3 ∧ s.mu.replies = [] ∧ s.rt.completion = [23] ∧ s.link.skip ≠ 4) ∧
    (∃ s : State, s = candidates 0 false false true 4 ∧ s.mu.replies = [] ∧ s.rt.completion = [23] ∧ s.nq = []) ∧
    (∃ s : State, s = candidates 0 false false false 0 ∧ s.mu.replies = [] ∧ s.nq = [] ∧ s.rt.completion = []) :=
  ⟨fun _ _ _ _ _ => ⟨rfl, rfl⟩, by decide, ⟨_, rfl, by decide, rfl, rfl⟩, ⟨_, rfl, rfl, rfl, rfl, rfl⟩,
    ⟨_, rfl, rfl, rfl, by decide⟩, ⟨_, rfl, rfl, rfl, rfl⟩, ⟨_, rfl, rfl, rfl, rfl⟩⟩

theorem witness_FinishedTransmissionsFreeSources (x : TxSource) :
    (sending x).link.state = .up ∧ (sending x).link.txSource = some x :=
  ⟨rfl, rfl⟩

/-- The largest lengths and counts that the fields of the upstream packets hold. -/
theorem witness_UpstreamPacketFields : (16 : Nat) ≤ 16 ∧ (List.replicate 8 (0 : Word)).length ≤ 8 ∧ (32 : Nat) ≤ 32 ∧
    (24 : Nat) ≤ 24 ∧ (2 : Nat) ≤ 2 ∧ (busyEntry 1).status = some .targetError ∧ (busyEntry 1).kind = .read ∧
    { busyEntry 1 with kind := .writeConfirmed }.kind = .writeConfirmed := by
  decide

/-- The address below the region, words 0 and 3 of it, and the address above; a good beat and two bad ones; four and five
LOCAL notices. -/
theorem witness_LocalWriteAnswered :
    let inRegion (a : Word) : Prop := portUp.mu.portEnable = true ∧ a.extractLsb' 4 28 = portUp.mu.portBase
    ¬inRegion 0x7FFEFFFC#32 ∧ inRegion 0x7FFF0000#32 ∧ inRegion 0x7FFF000C#32 ∧ ¬inRegion 0x7FFF0010#32 ∧
    (0x7FFF000C#32).extractLsb' 2 2 ≠ 0 ∧ (0x7FFF0000#32).extractLsb' 2 2 = 0 ∧
    parityError 15 1 1 = false ∧ parityError 15 1 0 = true ∧ ({ portUp with link := .reset } : State).link.state = .down ∧
    portUp.link.state = .up ∧ ({ portUp with nq := List.replicate 4 (.word 0) } : State).localNotices < 5 ∧
    5 ≤ ({ portUp with nq := List.replicate 5 (.word 0) } : State).localNotices := by
  decide

theorem witness_LocalReadAnswered :
    let inRegion (a : Word) : Prop := portUp.mu.portEnable = true ∧ a.extractLsb' 4 28 = portUp.mu.portBase
    ¬inRegion 0x7FFF0010#32 ∧ inRegion 0x7FFF0004#32 ∧ (0x7FFF0004#32).extractLsb' 2 2 ≠ 0 ∧
      inRegion 0x7FFF0000#32 ∧ (0x7FFF0000#32).extractLsb' 2 2 = 0 := by
  decide

/-! ## Witnesses: what the events share -/

/-- A masked kind; an EMPTY record; a record of a lower severity; a record of the same severity. -/
theorem witness_ReportIsRecorded :
    ({ ErrorCapture.reset with mask := 1 } : ErrorCapture).mask.getLsbD ErrorKind.linkCheck.number = true ∧
    ErrorCapture.reset.mask.getLsbD ErrorKind.mgmtDenied.number = false ∧ ErrorCapture.reset.record = none ∧
    busy.ecu.record = some ⟨.nonfatal, linkCheckReport⟩ ∧
    Severity.nonfatal.code.toNat < (busy.ecu.severityMap[ErrorKind.localTimeout.number]).code.toNat ∧
    (busy.ecu.severityMap[ErrorKind.malformed.number]).code.toNat ≤ Severity.nonfatal.code.toNat := by
  decide

/-- A FATAL report of an OPEN port, and one of a HALTED port. -/
theorem witness_ReportNotifiesAndHalts :
    busy.ecu.mask.getLsbD ErrorKind.localTimeout.number = false ∧
    busy.ecu.severityMap[ErrorKind.localTimeout.number] = .fatal ∧ busy.mu.haltOnFatal = true ∧
    busy.mu.port ≠ .halted ∧ halted.ecu.mask.getLsbD ErrorKind.localTimeout.number = false ∧
    halted.mu.port = .halted := by
  decide

theorem witness_NoticeRequestAppendsOrCoalesces :
    State.reset.link.state = .down ∧
    (busy.link.state = .up ∧ busy.nq = [] ++ .error .nonfatal .unmapped .filled 0 :: [.word 5] ∧
      ∀ m ∈ [] ++ [Notice.word 5], Notice.hasSeverity .nonfatal m = false) ∧
    ∀ m ∈ busy.nq, Notice.hasSeverity .fatal m = false := by
  decide

/-- `halted` between two sessions. -/
def haltedDown : State := { halted with link := LinkPort.reset }

theorem haltedDown_sound : haltedDown.Sound where
  queue := halted_sound.queue
  tracker := {
    orderNodup := halted_sound.tracker.orderNodup, orderMem := halted_sound.tracker.orderMem
    completionNodup := halted_sound.tracker.completionNodup, completionMem := halted_sound.tracker.completionMem
    entries := halted_sound.tracker.entries }
  engine := {
    idleCurrent := halted_sound.engine.idleCurrent, idleTimer := halted_sound.engine.idleTimer
    owningBeat := halted_sound.engine.owningBeat, owningCycle := halted_sound.engine.owningCycle
    headActive := halted_sound.engine.headActive, entryActive := halted_sound.engine.entryActive
    headTimer := halted_sound.engine.headTimer, entryTimer := halted_sound.engine.entryTimer
    streakBound := halted_sound.engine.streakBound }
  slots := {
    arrivalsNodup := halted_sound.slots.arrivalsNodup, arrivalsMem := halted_sound.slots.arrivalsMem
    repliesNodup := halted_sound.slots.repliesNodup, repliesMem := halted_sound.slots.repliesMem }
  link := ⟨fun _ => ⟨rfl, by decide, rfl, rfl, fun i h => by
    rw [show haltedDown.rt.entries[i] = TrackerEntry.reset from halted_entry i] at h; cases h⟩, trivial, by decide, rfl⟩
  credits := fun p => by cases p <;> exact ⟨rfl, rfl⟩

/-- `busy` with another Window Decoder and another occupant of slot 0. -/
def busyWith (d : WindowDecoder) (q : Slot) : State :=
  { busy with wd := d, mu := { busy.mu with slots := #v[q, .free] } }

theorem busyWith_sound (d : WindowDecoder) (r : MgmtRequest) (q : Slot) (h : q = .held r ∨ q = .waiting r) :
    (busyWith d q).Sound where
  queue := busy_sound.queue
  tracker := {
    orderNodup := busy_sound.tracker.orderNodup, orderMem := busy_sound.tracker.orderMem
    completionNodup := busy_sound.tracker.completionNodup, completionMem := busy_sound.tracker.completionMem
    entries := busy_sound.tracker.entries }
  engine := {
    idleCurrent := busy_sound.engine.idleCurrent, idleTimer := busy_sound.engine.idleTimer
    owningBeat := busy_sound.engine.owningBeat, owningCycle := busy_sound.engine.owningCycle
    headActive := busy_sound.engine.headActive, entryActive := busy_sound.engine.entryActive
    headTimer := busy_sound.engine.headTimer, entryTimer := busy_sound.engine.entryTimer
    streakBound := busy_sound.engine.streakBound }
  slots := {
    arrivalsNodup := busy_sound.slots.arrivalsNodup
    arrivalsMem := fun k => by
      match k with
      | 0 => rcases h with rfl | rfl <;> exact ⟨fun _ => rfl, fun _ => List.mem_cons_self⟩
      | 1 => exact busy_sound.slots.arrivalsMem 1
    repliesNodup := busy_sound.slots.repliesNodup
    repliesMem := fun k => by
      match k with
      | 0 => rcases h with rfl | rfl <;> exact busy_sound.slots.repliesMem 0
      | 1 => exact busy_sound.slots.repliesMem 1 }
  link := ⟨fun h => (by cases h), trivial, busy_sound.link.skipBound, rfl⟩
  credits := fun p => by
    match p with
    | .posted => exact busy_sound.credits .posted
    | .nonPosted => exact busy_sound.credits .nonPosted
    | .management => rcases h with rfl | rfl <;> rfl

/-- The discarded records of the older generation of `busyWith`. -/
theorem busyWith_older (d : WindowDecoder) (q : Slot) (h : d.generation = 8) :
    ((busyWith d q).pwq.filter fun r => r.state != .active && r.generation != (busyWith d q).wd.generation).length = 1 := by
  have hg : (busyWith d q).wd.generation = 8 := h
  rw [hg]
  rfl

/-- The link UP and DOWN; no drain; a drain of more items than are discarded; one that the discard ends, with the COMMIT's
slot held and with no slot that holds one. -/
theorem witness_HaltDiscardsAndRefuses :
    (busy.Sound ∧ busy.mu.port ≠ .halted ∧ busy.link.state = .up) ∧ (haltedDown.Sound ∧ haltedDown.link.state = .down) ∧
    (∃ s : State, s.Sound ∧ s.wd.commit = .idle) ∧
    (∃ s : State, s.Sound ∧ s.wd.commit = .draining ∧
      (s.pwq.filter fun r => r.state != .active && r.generation != s.wd.generation).length = 1 ∧ 1 < s.wd.drain) ∧
    (∃ s : State, s.Sound ∧ s.wd.commit = .draining ∧
      (s.pwq.filter fun r => r.state != .active && r.generation != s.wd.generation).length = s.wd.drain ∧
      1 ≤ s.wd.drain ∧ s.HeldCommitDrains ∧ s.mu.slots[(0 : Fin 2)] = .held (command 3) ∧
      (command 3).kind = .mgmtCommand ∧ (command 3).address = 3) ∧
    ∃ s : State, s.Sound ∧ s.wd.commit = .draining ∧
      (s.pwq.filter fun r => r.state != .active && r.generation != s.wd.generation).length = s.wd.drain ∧
      1 ≤ s.wd.drain ∧ ∀ k : Fin 2, s.mu.slots[k].holdsCommit = false :=
  ⟨⟨busy_sound, by decide, rfl⟩, ⟨haltedDown_sound, rfl⟩,
    ⟨_, busyWith_sound { busy.wd with commit := .idle } (command 3) _ (.inl rfl), rfl⟩,
    ⟨_, busyWith_sound busy.wd (command 3) _ (.inl rfl), rfl, busyWith_older _ _ rfl, by decide⟩,
    ⟨_, busyWith_sound { busy.wd with drain := 1 } (command 3) _ (.inl rfl), rfl, busyWith_older _ _ rfl, by decide,
      by unfold State.HeldCommitDrains; decide, rfl, rfl, rfl⟩,
    ⟨_, busyWith_sound { busy.wd with drain := 1 } (command 3) _ (.inr rfl), rfl, busyWith_older _ _ rfl, by decide,
      by decide⟩⟩

/-- Nothing to count; a drain of three items; the last item, with the COMMIT's slot held and with it gone. -/
theorem witness_DrainCountsOut :
    State.reset.wd.commit = .idle ∧ (busy.wd.commit = .draining ∧ 7 ≠ busy.wd.generation ∧ 1 < busy.wd.drain) ∧
    (∃ s : State, s = { busy with wd := { busy.wd with drain := 1 } } ∧
      s.wd.commit = .draining ∧ s.wd.drain = 1 ∧ s.HeldCommitDrains ∧ s.mu.slots[(0 : Fin 2)] = .held (command 3) ∧
      (command 3).kind = .mgmtCommand ∧ (command 3).address = 3) ∧
    ∀ k : Fin 2, State.reset.mu.slots[k].holdsCommit = false :=
  ⟨rfl, by decide, ⟨_, rfl, rfl, rfl, by unfold State.HeldCommitDrains; decide, rfl, rfl, rfl⟩, by decide⟩

/-- The three arrangements. -/
theorem witness_LanesAndParity : LaneSwap.noSwap ≠ .invalid ∧ LaneSwap.swap16 ≠ .invalid ∧ LaneSwap.swap32 ≠ .invalid := by
  decide

end Sys2Proof.Tests
end

section
/-! PROOF. The state right after power-on reset (R158): its vectors entry by entry, the invariants it has, and the command
that leads to it. -/

namespace Sys2Proof.Machine

/-! ## The vectors of the reset state -/

/-- R8: every entry of both banks. -/
theorem State.reset_window (i : Fin 16) :
    State.reset.wd.staging[i] = WindowEntry.reset ∧ State.reset.wd.active[i] = WindowEntry.reset :=
  ⟨Vector.getElem_replicate i.isLt, Vector.getElem_replicate i.isLt⟩

/-- R56. -/
theorem State.reset_entry (i : Fin 24) : State.reset.rt.entries[i] = TrackerEntry.reset :=
  Vector.getElem_replicate i.isLt

/-- Table 5-1, third column. -/
theorem State.reset_timer (i : Fin 24) :
    State.reset.lbe.entryTimers[i] = none ∧ State.reset.lbe.parityMarks[i] = false :=
  ⟨Vector.getElem_replicate i.isLt, Vector.getElem_replicate i.isLt⟩

/-- R139. -/
theorem State.reset_slot (k : Fin 2) : State.reset.mu.slots[k] = .free :=
  Vector.getElem_replicate k.isLt

/-- R56: no entry is in use. -/
theorem State.reset_entry_not_inUse (i : Fin 24) : State.reset.rt.entries[i].inUse ≠ true := by
  rw [State.reset_entry]
  decide

/-- R26: validation passes over a disabled entry. -/
theorem WindowEntry.rejected_of_disabled {e : WindowEntry} (h : e.enabled = false) : e.rejected = none := by
  rw [WindowEntry.rejected, h, if_neg Bool.false_ne_true]

/-! ## The invariants at reset -/

theorem TrackerEntry.reset_sound (occupancy : Nat) : TrackerEntry.reset.Sound occupancy where
  orphanActive := nofun
  statusComplete := by decide
  orderedCount := by decide
  countBound := Nat.zero_le _
  placed := nofun
  lengthRange := nofun
  progressBound := nofun
  unfinished := nofun
  readData := nofun
  writeData := nofun
  okWhole := nofun
  retryBound := nofun

theorem State.reset_queueSound : State.reset.QueueSound :=
  ⟨Nat.zero_le _, fun _ h => absurd h List.not_mem_nil, fun _ h => absurd h List.not_mem_nil⟩

theorem State.reset_trackerSound : State.reset.TrackerSound where
  orderNodup := List.nodup_nil
  orderMem i := iff_of_false List.not_mem_nil (State.reset_entry_not_inUse i)
  completionNodup := List.nodup_nil
  completionMem i := iff_of_false List.not_mem_nil (by rw [State.reset_entry]; decide)
  entries i := by rw [State.reset_entry]; exact TrackerEntry.reset_sound _

/-- The queue is empty, so it has no head in any state. -/
theorem State.not_headIs_of_empty {s : State} (h : s.pwq = []) (st : RecordState) : ¬s.headIs st := by
  rintro ⟨r, rest, hq, _⟩
  rw [h] at hq
  cases hq

theorem State.reset_engineSound : State.reset.EngineSound where
  idleCurrent := by decide
  idleTimer := by decide
  owningBeat := by decide
  owningCycle := by decide
  headActive := iff_of_false nofun (State.not_headIs_of_empty rfl _)
  entryActive i := iff_of_false nofun (by rw [State.reset_entry]; decide)
  headTimer := iff_of_false nofun (State.not_headIs_of_empty rfl _)
  entryTimer i := by rw [(State.reset_timer i).1, State.reset_entry]; decide
  streakBound := Nat.zero_le _

theorem State.reset_slotsSound : State.reset.SlotsSound where
  arrivalsNodup := List.nodup_nil
  arrivalsMem k := iff_of_false List.not_mem_nil (by rw [State.reset_slot]; decide)
  repliesNodup := List.nodup_nil
  repliesMem k := iff_of_false List.not_mem_nil (by rw [State.reset_slot]; decide)

theorem State.reset_linkSound : State.reset.LinkSound where
  downQuiet _ :=
    { noCompletion := rfl
      slotsFree := State.reset_slot
      noNotice := rfl
      noTx := rfl
      orphans := fun i h => absurd h (State.reset_entry_not_inUse i) }
  tx := trivial
  skipBound := Nat.zero_le _
  markClear := rfl

/-- R167: the link is DOWN and both counts of every pool are zero. -/
theorem State.reset_creditsConserved : State.reset.CreditsConserved := by
  intro p
  cases p <;> exact ⟨rfl, rfl⟩

theorem State.reset_sound : State.reset.Sound where
  queue := State.reset_queueSound
  tracker := State.reset_trackerSound
  engine := State.reset_engineSound
  slots := State.reset_slotsSound
  link := State.reset_linkSound
  credits := State.reset_creditsConserved

theorem State.reset_settingsInRange : State.reset.SettingsInRange := by
  unfold State.SettingsInRange
  decide

theorem State.reset_drainExact : State.reset.DrainExact where
  queueRecent _ h := absurd h List.not_mem_nil
  trackerRecent i h := absurd h (State.reset_entry_not_inUse i)
  idleNone _ := ⟨by decide, rfl⟩
  drainCounts := nofun

theorem State.reset_heldCommitDrains : State.reset.HeldCommitDrains := by
  have hnone : ∀ k : Fin 2, State.reset.mu.slots[k].holdsCommit ≠ true := fun k => by
    rw [State.reset_slot]
    decide
  exact ⟨fun k h => absurd h (hnone k), fun h => hnone 0 h.1⟩

/-- R8, R26: every entry is disabled. -/
theorem State.reset_activeBankValid : State.reset.ActiveBankValid := fun i => by
  rw [(State.reset_window i).2]
  exact WindowEntry.rejected_of_disabled rfl

theorem State.reset_recordsSound : State.reset.RecordsSound where
  worstIsRecord := rfl
  setCount := by decide
  emptyNone _ := rfl

theorem State.reset_noticesBounded : State.reset.NoticesBounded :=
  ⟨Nat.zero_le _, fun _ => Nat.zero_le _⟩

theorem State.reset_haltedQuiet : State.reset.HaltedQuiet := nofun

theorem State.reset_tagsDistinct : State.reset.TagsDistinct :=
  fun i _ _ hi => absurd hi (State.reset_entry_not_inUse i)

/-- Settles O4: each invariant by its lemma. No FATAL is held at reset, so the port guard asks nothing. -/
theorem invariantsHoldAtReset : Obligations.InvariantsHoldAtReset :=
  ⟨State.reset_sound, State.reset_settingsInRange, State.reset_drainExact, State.reset_heldCommitDrains,
    State.reset_activeBankValid, State.reset_recordsSound, State.reset_noticesBounded, nofun,
    State.reset_haltedQuiet, State.reset_tagsDistinct⟩

/-! ## POWER_ON_RESET -/

/-- Settles O13: the answer is the reset state with the queue of commands kept. Its vectors are read entry by entry, and its
other fields are the values of the blocks' reset records. -/
theorem powerOnReset : Obligations.PowerOnReset := by
  refine ⟨rfl, rfl, fun s => ⟨{ State.reset with pending := s.pending }, rfl, rfl, rfl, rfl, State.reset_window,
    rfl, rfl, rfl, rfl, fun i => ?_, rfl, rfl, rfl, rfl, rfl, rfl, rfl, rfl, rfl, rfl, State.reset_timer, ?_⟩⟩
  · have hentry : ({ State.reset with pending := s.pending } : State).rt.entries[i] = TrackerEntry.reset :=
      State.reset_entry i
    rw [hentry]
    exact ⟨rfl, rfl, rfl⟩
  · refine ⟨rfl, rfl, rfl, rfl, rfl, rfl, rfl, rfl, rfl, rfl, State.reset_slot, ?_⟩
    and_intros <;> rfl

end Sys2Proof.Machine
end

section
/-! PROOF. Byte lanes: where a lane arrangement takes each byte and each enable (R5, Table 1-2), the masking of bytes (R66,
R91, R133) and the parity of a lane (R99). -/

namespace Sys2Proof.Machine

/-! ## Words as four bytes, nibbles as four flags -/

/-- Byte `k` of a word built from four bytes. -/
theorem byteOf_ofBytes (b3 b2 b1 b0 : BitVec 8) :
    byteOf (ofBytes b3 b2 b1 b0) 0 = b0 ∧ byteOf (ofBytes b3 b2 b1 b0) 1 = b1 ∧
    byteOf (ofBytes b3 b2 b1 b0) 2 = b2 ∧ byteOf (ofBytes b3 b2 b1 b0) 3 = b3 := by
  unfold byteOf ofBytes
  and_intros <;> refine BitVec.eq_of_getLsbD_eq fun i hi => ?_ <;>
    simp only [BitVec.getLsbD_extractLsb', BitVec.getLsbD_append, hi, decide_true, Bool.true_and] <;>
    grind

/-- A word is built from its four bytes. -/
theorem ofBytes_byteOf (w : Word) : ofBytes (byteOf w 3) (byteOf w 2) (byteOf w 1) (byteOf w 0) = w := by
  unfold byteOf ofBytes
  refine BitVec.eq_of_getLsbD_eq fun i hi => ?_
  simp only [BitVec.getLsbD_extractLsb', BitVec.getLsbD_append]
  grind

/-- Flag `k` of a nibble built from four flags. -/
theorem getLsbD_ofFlags (f3 f2 f1 f0 : Bool) :
    (ofFlags f3 f2 f1 f0).getLsbD 0 = f0 ∧ (ofFlags f3 f2 f1 f0).getLsbD 1 = f1 ∧
    (ofFlags f3 f2 f1 f0).getLsbD 2 = f2 ∧ (ofFlags f3 f2 f1 f0).getLsbD 3 = f3 := by
  revert f3 f2 f1 f0
  decide

/-- A nibble is built from its four flags. -/
theorem ofFlags_getLsbD (m : Nibble) :
    ofFlags (m.getLsbD 3) (m.getLsbD 2) (m.getLsbD 1) (m.getLsbD 0) = m := by
  revert m
  decide

/-- A nibble is not zero exactly when it has a flag set. -/
theorem nibble_ne_zero_iff (m : Nibble) : m ≠ 0 ↔ ∃ l : Fin 4, m.getLsbD l.val = true := by
  revert m
  decide

/-! ## Lane arrangements (Table 1-2) -/

/-- Table 1-2, bytes. -/
theorem swapWord_byte (w : Word) (k : Fin 4) : byteOf (swapWord .noSwap w) k.val = byteOf w k.val ∧
    byteOf (swapWord .swap16 w) ((k.val + 2) % 4) = byteOf w k.val ∧
    byteOf (swapWord .swap32 w) (3 - k.val) = byteOf w k.val := by
  obtain ⟨a0, a1, a2, a3⟩ := byteOf_ofBytes (byteOf w 1) (byteOf w 0) (byteOf w 3) (byteOf w 2)
  obtain ⟨b0, b1, b2, b3⟩ := byteOf_ofBytes (byteOf w 0) (byteOf w 1) (byteOf w 2) (byteOf w 3)
  match k with
  | 0 => exact ⟨rfl, a2, b3⟩
  | 1 => exact ⟨rfl, a3, b2⟩
  | 2 => exact ⟨rfl, a0, b1⟩
  | 3 => exact ⟨rfl, a1, b0⟩

/-- Table 1-2, enables. -/
theorem swapEnables_flag (m : Nibble) (k : Fin 4) : (swapEnables .noSwap m).getLsbD k.val = m.getLsbD k.val ∧
    (swapEnables .swap16 m).getLsbD ((k.val + 2) % 4) = m.getLsbD k.val ∧
    (swapEnables .swap32 m).getLsbD (3 - k.val) = m.getLsbD k.val := by
  obtain ⟨a0, a1, a2, a3⟩ := getLsbD_ofFlags (m.getLsbD 1) (m.getLsbD 0) (m.getLsbD 3) (m.getLsbD 2)
  obtain ⟨b0, b1, b2, b3⟩ := getLsbD_ofFlags (m.getLsbD 0) (m.getLsbD 1) (m.getLsbD 2) (m.getLsbD 3)
  match k with
  | 0 => exact ⟨rfl, a2, b3⟩
  | 1 => exact ⟨rfl, a3, b2⟩
  | 2 => exact ⟨rfl, a0, b1⟩
  | 3 => exact ⟨rfl, a1, b0⟩

/-- R5: an arrangement applied twice gives the word back. -/
theorem swapWord_swapWord (a : LaneSwap) (w : Word) : swapWord a (swapWord a w) = w := by
  cases a with
  | noSwap => rfl
  | invalid => rfl
  | swap16 => simp only [swapWord, byteOf_ofBytes, ofBytes_byteOf]
  | swap32 => simp only [swapWord, byteOf_ofBytes, ofBytes_byteOf]

/-- R5: an arrangement applied twice gives the enables back. -/
theorem swapEnables_swapEnables (a : LaneSwap) (m : Nibble) : swapEnables a (swapEnables a m) = m := by
  cases a with
  | noSwap => rfl
  | invalid => rfl
  | swap16 => simp only [swapEnables, getLsbD_ofFlags, ofFlags_getLsbD]
  | swap32 => simp only [swapEnables, getLsbD_ofFlags, ofFlags_getLsbD]

/-! ## Parity (R99) -/

/-- The exclusive OR of a row of flags, begun with `c`, has the parity of their number. -/
theorem countP_add_xor_even (p : Nat → Bool) (l : List Nat) (c : Bool) :
    (l.countP p + (l.foldl (fun x n => x ^^ p n) c).toNat) % 2 = c.toNat % 2 := by
  induction l generalizing c with
  | nil => simp
  | cons n l ih =>
    have hrest := ih (c ^^ p n)
    have htoggle : ((if p n = true then 1 else 0) + (c ^^ p n).toNat + c.toNat) % 2 = 0 := by
      cases c <;> cases p n <;> rfl
    rw [List.foldl_cons, List.countP_cons]
    omega

/-- R99: a byte with its parity bit holds an even number of ones. -/
theorem byteParity_even (b : BitVec 8) :
    ((List.range 8).countP (fun n => b.getLsbD n) + (byteParity b).toNat) % 2 = 0 := by
  have hfold : (List.range 8).foldl (fun x n => x ^^ b.getLsbD n) false = byteParity b := by
    simp [List.range, List.range.loop, byteParity]
  rw [← hfold]
  exact countP_add_xor_even _ _ false

/-- R134: bit `l` of the parity bits is that of lane `l`. -/
theorem parityBits_getLsbD (w : Word) (l : Fin 4) : (parityBits w).getLsbD l.val = laneParity w l.val := by
  obtain ⟨h0, h1, h2, h3⟩ := getLsbD_ofFlags (laneParity w 3) (laneParity w 2) (laneParity w 1) (laneParity w 0)
  match l with
  | 0 => exact h0
  | 1 => exact h1
  | 2 => exact h2
  | 3 => exact h3

/-- R99: an error is shown by an enabled lane whose bit differs, and by nothing else. -/
theorem parityError_iff (enables : Nibble) (w : Word) (parity : Nibble) : parityError enables w parity = true ↔
    ∃ l : Fin 4, enables.getLsbD l.val = true ∧ laneParity w l.val ≠ parity.getLsbD l.val := by
  rw [parityError, bne_iff_ne, nibble_ne_zero_iff]
  simp only [BitVec.getLsbD_and, BitVec.getLsbD_xor, parityBits_getLsbD, Bool.and_eq_true, bne_iff_ne]

/-- Settles O60, a clause from each lemma above; the examples of Table 1-2 are evaluated. -/
theorem lanesAndParity : Obligations.LanesAndParity := by
  refine ⟨swapWord_byte, swapEnables_flag, fun a w _ => swapWord_swapWord a w, fun a m _ => swapEnables_swapEnables a m,
    ?_, ?_, ?_, ?_, ?_, ?_, maskWord_byte, fun _ _ => rfl, byteParity_even, parityError_iff⟩ <;> decide

end Sys2Proof.Machine
end

section
/-! PROOF. Decode: the tests of Table 1-4 in their order, and the local address of R17. -/

namespace Sys2Proof.Machine

/-- R2: an entry's link range in numbers; it is empty for a size code above 20 (log entry 14). -/
def WindowEntry.Holds (e : WindowEntry) (byte : Nat) : Prop :=
  e.sizeCode.toNat ≤ 20 ∧ e.linkBase.toNat * 4096 ≤ byte ∧
    byte < e.linkBase.toNat * 4096 + 4096 * 2 ^ e.sizeCode.toNat

theorem WindowEntry.contains_iff_holds (e : WindowEntry) (byte : Nat) : e.contains byte = true ↔ e.Holds byte :=
  e.contains_iff byte

theorem WindowEntry.contains_eq_false_iff (e : WindowEntry) (byte : Nat) : e.contains byte = false ↔ ¬e.Holds byte := by
  rw [← e.contains_iff_holds, Bool.not_eq_true]

/-- R12: without an enabled entry that contains the first word there is no match. -/
theorem findMatch_eq_none (bank : Bank) (a : WordAddress)
    (h : ∀ i : Fin 16, bank[i].enabled = true → ¬bank[i].Holds (wordByte a)) : findMatch bank a = none := by
  refine List.find?_eq_none.mpr fun i _ hmatch => ?_
  obtain ⟨he, hc⟩ := Bool.and_eq_true_iff.mp hmatch
  exact h i he ((WindowEntry.contains_iff_holds _ _).mp hc)

/-- R11, R13: the test of the last word. -/
theorem WindowEntry.containsSpan_eq_false_iff (e : WindowEntry) (a : WordAddress) (length : Nat) :
    e.containsSpan a length = false ↔ ¬(lastByte a length < 2 ^ 32 ∧ e.Holds (lastByte a length)) := by
  rw [← Bool.not_eq_true, WindowEntry.containsSpan, Bool.and_eq_true, decide_eq_true_iff, e.contains_iff_holds]

/-- R15: the flag of a kind and a class. -/
theorem WindowEntry.permits_eq (e : WindowEntry) (k : DataKind) (c : ReqClass) : e.permits k c =
    if k = .read then e.rights.getLsbD (2 * c.toNat) else e.rights.getLsbD (2 * c.toNat + 1) := by
  cases k <;> rfl

/-- R14: the tests on the matched entry, in their order. -/
theorem decodeMatched_eq (bank : Bank) (i : Fin 16) (q : DataRequest) : decodeMatched bank i q =
    if bank[i].containsSpan q.linkAddress q.length = false then .notContained (placementAt bank i q.linkAddress)
    else if bank[i].permits q.kind q.cls = false then .denied (placementAt bank i q.linkAddress)
    else if q.kind = .writePosted ∧ bank[i].postingAllowed = false then
      .postingRefused (placementAt bank i q.linkAddress)
    else .accepted (placementAt bank i q.linkAddress) bank[i].order := by
  simp only [decodeMatched, Bool.not_eq_true', Bool.and_eq_true, beq_iff_eq]

/-- R2: the word address of a base field. -/
theorem baseAddress_toNat (b : BitVec 20) : (b ++ 0#10).toNat = b.toNat * 1024 := by
  rw [BitVec.toNat_append]
  simp [Nat.shiftLeft_eq]

/-- R17: the local address where the translation range fits the local space. -/
theorem WindowEntry.translate_byte (e : WindowEntry) (a : WordAddress) (h : e.Holds (wordByte a))
    (hfit : e.translationBase.toNat * 4096 + 4096 * 2 ^ e.sizeCode.toNat ≤ 2 ^ 32) :
    wordByte (e.translate a) = e.translationBase.toNat * 4096 + wordByte a - e.linkBase.toNat * 4096 := by
  obtain ⟨_, hlow, hhigh⟩ := h
  have haddr : (e.translate a).toNat =
      (2 ^ 30 - e.linkBase.toNat * 1024 + (e.translationBase.toNat * 1024 + a.toNat) % 2 ^ 30) % 2 ^ 30 := by
    rw [WindowEntry.translate, BitVec.toNat_sub, BitVec.toNat_add, baseAddress_toNat, baseAddress_toNat]
  unfold wordByte at *
  rw [haddr]
  have := e.linkBase.isLt
  generalize 2 ^ e.sizeCode.toNat = size at *
  omega

/-- Settles O25: the search of R12 gives the entry, and R14's tests decide. -/
theorem decodeFollowsItsTests : Obligations.DecodeFollowsItsTests := by
  refine ⟨fun _ _ _ => rfl, fun bank q => ⟨rfl, rfl, fun hnone => ?_, fun i he hfirst hbefore => ?_⟩⟩
  · simp only [decode, findMatch_eq_none bank q.linkAddress hnone]
  · have hmatch : findMatch bank q.linkAddress = some i :=
      findMatch_eq_some bank q.linkAddress i he ((WindowEntry.contains_iff_holds _ _).mpr hfirst)
        fun j hj hej => (WindowEntry.contains_eq_false_iff _ _).mpr (hbefore j hj hej)
    refine ⟨placementAt bank i q.linkAddress, rfl, rfl, rfl, rfl, bank[i].translate_byte q.linkAddress hfirst, ?_⟩
    simp only [decode, hmatch, decodeMatched_eq, WindowEntry.permits_eq]
    exact if_congr (bank[i].containsSpan_eq_false_iff q.linkAddress q.length) rfl rfl

end Sys2Proof.Machine
end

section
/-! PROOF. Data requests refused at decode: a posted write is discarded (R10, R19, R21), and a READ or WRITE_CONFIRMED is
given a COMPLETE entry (R20, R61). -/

namespace Sys2Proof.Machine

/-! ## The packet of a data request (R161, R163) -/

/-- Table 11-2: the code of a data kind. -/
theorem DownstreamKind.ofCode_data {c : BitVec 4} {k : DataKind} (h : DownstreamKind.ofCode c = some (.data k)) :
    k.code = c := by
  revert c
  cases k <;> decide

/-- R163, steps 2 to 5: a well-formed data request with a grant is charged and handed over. -/
theorem PacketReceived.exec_data {words : List Word} {h : Header} {data : List Word} (hp : PacketReceived words h data)
    (p : Fin 24) {s : State} {k : DataKind} (hup : s.link.state = .up)
    (hk : DownstreamKind.ofCode h.kindCode = some (.data k))
    (hc : (s.link.pool (DownstreamKind.data k).pool).outstanding ≠ 0) (hf : formWellFormed (.data k) h data = true) :
    Machine.exec (.downstreamPacket words p) s =
      (s.consume (DownstreamKind.data k).pool).takeData (h.dataRequest k data) p := by
  rw [hp.exec p hup, hk]
  exact State.chargePacket_routed p hc hf

/-- Table 6-2: the packet fields of a data request are those of its header. -/
theorem Header.dataRequest_packetFields (h : Header) (k : DataKind) (data : List Word) :
    (h.dataRequest k data).packetFields = ⟨k.code, h.cls, h.address, h.length⟩ := by
  simp only [DataRequest.packetFields, Header.dataRequest, BitVec.ofNat_toNat, BitVec.setWidth_eq]

/-! ## The report of a refusal (R21) -/

theorem State.reportRefusal_some {posted : Bool} {o : DecodeOutcome} {e : ErrorKind} (h : o.errorKind posted = some e)
    (q : DataRequest) (g : BitVec 8) (s : State) :
    s.reportRefusal posted q g o = s.report (decodeReport e q g o) := by
  rw [State.reportRefusal, h]

theorem State.reportRefusal_none {posted : Bool} {o : DecodeOutcome} (h : o.errorKind posted = none)
    (q : DataRequest) (g : BitVec 8) (s : State) : s.reportRefusal posted q g o = s := by
  rw [State.reportRefusal, h]

/-- Table 1-6: the capture of a refused posted write, which has no tag. -/
theorem decodeReport_posted (e : ErrorKind) (h : Header) (data : List Word) (g : BitVec 8) (o : DecodeOutcome) :
    decodeReport e (h.dataRequest .writePosted data) g o =
      { kind := e, source := .fromDecode, packet := some ⟨1, h.cls, h.address, h.length⟩, tag := none
        generation := some g, window := o.capture, firstData := data.head? } := by
  rw [decodeReport, Header.dataRequest_packetFields]
  rfl

/-- Table 1-6: the capture of a refused READ or WRITE_CONFIRMED. -/
theorem decodeReport_nonPosted {k : DataKind} (hk : k ≠ .writePosted) (e : ErrorKind) (h : Header) (data : List Word)
    (g : BitVec 8) (o : DecodeOutcome) : decodeReport e (h.dataRequest k data) g o =
      { kind := e, source := .fromDecode, packet := some ⟨k.code, h.cls, h.address, h.length⟩, tag := some h.tag
        generation := some g, window := o.capture, firstData := data.head? } := by
  have hkind : (h.dataRequest k data).kind ≠ .writePosted := hk
  rw [decodeReport, Header.dataRequest_packetFields, DataRequest.captureTag, if_neg hkind]
  rfl

/-! ## Posted writes -/

/-- R10: a posted write that decode refuses is discarded. -/
theorem State.takePosted_refused {s : State} {q : DataRequest} {o : DecodeOutcome}
    (hd : decode s.mu.port s.wd.active q = o) (ho : o.refusal.isSome = true) :
    s.takePosted q = .next (s.discardWrite q o) := by
  rw [State.takePosted, hd]
  cases o with
  | accepted p o => cases ho
  | _ => rfl

/-- R19: a discarded write whose refusal has an error kind is reported after its credit is released. -/
theorem State.discardWrite_reported {o : DecodeOutcome} {e : ErrorKind} (ho : o.errorKind true = some e)
    (q : DataRequest) (s : State) :
    s.discardWrite q o = (s.release .posted).report (decodeReport e q s.wd.generation o) := by
  rw [← State.reportRefusal_some ho]
  cases o with
  | halted => cases ho
  | accepted p o => cases ho
  | _ => rfl

/-- Settles O20: the packet is charged and decoded, its credit is released, and the refusal is counted or reported. -/
theorem postedWriteDiscarded : Obligations.PostedWriteDiscarded := by
  intro words p s h data o hup hp hcode hgrant hform hdecode released report
  have hkind : DownstreamKind.ofCode h.kindCode = some (.data .writePosted) := by rw [hcode]; rfl
  have hreleased : (s.consume .posted).release .posted = released := State.consume_release_up .posted hup
  have hdiscard (ho : o.refusal.isSome = true) : exec (.downstreamPacket words p) s =
      .next ((s.consume .posted).discardWrite (h.dataRequest .writePosted data) o) :=
    (hp.exec_data p hup hkind hgrant hform).trans (State.takePosted_refused hdecode ho)
  have hreport (e : ErrorKind) (ho : o.refusal.isSome = true) (he : o.errorKind true = some e) :
      exec (.downstreamPacket words p) s = .next (released.report (report e o.capture)) := by
    rw [hdiscard ho, State.discardWrite_reported he, hreleased, decodeReport_posted]
    rfl
  refine ⟨?_, ?_, ?_, ?_, ?_, ?_⟩
  · rintro rfl
    rw [hdiscard rfl, State.discardWrite, hreleased]
    rfl
  · rintro rfl
    exact hreport .closedWrite rfl rfl
  · rintro rfl
    exact hreport .unmapped rfl rfl
  · rintro pl rfl
    exact hreport .unmapped rfl rfl
  · rintro pl rfl
    exact hreport .accessDenied rfl rfl
  · rintro pl rfl
    exact hreport .postingRefused rfl rfl

/-! ## READ and WRITE_CONFIRMED -/

/-- R16: POSTING_REFUSED is of posted writes alone. -/
theorem decode_ne_postingRefused (port : PortState) (bank : Bank) {q : DataRequest} (h : q.kind ≠ .writePosted)
    (pl : Placement) : decode port bank q ≠ .postingRefused pl := by
  have hposted : (q.kind == .writePosted) = false := beq_eq_false_iff_ne.mpr h
  unfold decode
  split
  · nofun
  · nofun
  · split
    · nofun
    · simp only [decodeMatched, hposted, Bool.false_and, Bool.false_eq_true, if_false]
      split
      · nofun
      · split <;> nofun

/-- R20, R61: the entry of a refused request. -/
theorem allocatedEntry_refused {o : DecodeOutcome} {st : Status} (ho : o.refusal = some st) (q : DataRequest)
    (g a : BitVec 8) (n : Nat) : allocatedEntry q o g a n = (newEntry q g a).completed st := by
  cases o with
  | accepted p o => cases ho
  | _ => cases ho; rfl

/-- R20, R58, R61: a refused request's entry is the newest in allocation order, and joins the completion list. -/
theorem State.allocate_refused {o : DecodeOutcome} {st : Status} (ho : o.refusal = some st) (i : Fin 24)
    (q : DataRequest) (s : State) : s.allocate i q o = { s with rt :=
      { entries := s.rt.entries.set i ((newEntry q s.wd.generation s.rt.counter).completed st)
        counter := s.rt.counter + 1, order := s.rt.order ++ [i], completion := s.rt.completion ++ [i] } } := by
  simp only [State.allocate, allocatedEntry_refused ho]
  rfl

/-- R59 to R61: a request whose tag is not in use is given a FREE entry, and then the error of its refusal is reported. -/
theorem State.takeNonPosted_allocates {s : State} {q : DataRequest} {p i : Fin 24} (ht : s.tagInUse q.tag = false)
    (hi : s.freeEntryFor p = some i) : s.takeNonPosted q p =
      .next ((s.allocate i q (decode s.mu.port s.wd.active q)).reportRefusal false q s.wd.generation
        (decode s.mu.port s.wd.active q)) := by
  rw [State.takeNonPosted, ht, if_neg Bool.false_ne_true, hi]

/-- R161: a data request that is no posted write goes to the Request Tracker, and is charged to its pool. -/
theorem DataKind.nonPosted_spec {k : DataKind} (hk : k ≠ .writePosted) : (DownstreamKind.data k).pool = .nonPosted ∧
    k.nonPosted = (if k = .read then .read else .writeConfirmed) ∧
    ∀ (s : State) (q : DataRequest) (p : Fin 24), q.kind = k → s.takeData q p = s.takeNonPosted q p := by
  cases k with
  | writePosted => exact absurd rfl hk
  | writeConfirmed => exact ⟨rfl, rfl, fun s q p hq => by rw [State.takeData, hq]⟩
  | read => exact ⟨rfl, rfl, fun s q p hq => by rw [State.takeData, hq]⟩

/-- Settles O22: the packet is charged and passes the tag check, a FREE entry takes the refusal status, and the refusal is
reported from the state with that entry. -/
theorem nonPostedRefused : Obligations.NonPostedRefused := by
  intro words p s h data k o hup hp hkind hk hgrant hform htag hfree hdecode
  obtain ⟨i, hfound, hi, hpreferred⟩ := State.freeEntryFor_some (s := s.consume .nonPosted) p hfree
  refine ⟨i, hi, hpreferred, ?_⟩
  intro given report
  obtain ⟨hpool, hnp, htake⟩ := DataKind.nonPosted_spec hk
  have hgiven (st : Status) (ho : o.refusal = some st) : exec (.downstreamPacket words p) s =
      .next ((given st).reportRefusal false (h.dataRequest k data) s.wd.generation o) := by
    have hallocated : (s.consume .nonPosted).allocate i (h.dataRequest k data) o = given st := by
      rw [State.allocate_refused ho, newEntry]
      simp only [Header.dataRequest, hnp]
      rfl
    rw [hp.exec_data p hup hkind (by rw [hpool]; exact hgrant) hform, hpool, htake _ _ _ rfl,
      State.takeNonPosted_allocates htag hfound, ← hallocated, ← hdecode]
    rfl
  have hreport (st : Status) (e : ErrorKind) (ho : o.refusal = some st) (he : o.errorKind false = some e) :
      exec (.downstreamPacket words p) s = .next ((given st).report (report e o.capture)) := by
    rw [hgiven st ho, State.reportRefusal_some he, decodeReport_nonPosted hk, DownstreamKind.ofCode_data hkind]
  refine ⟨?_, ?_, ?_, ?_, ?_, fun pl => hdecode ▸ decode_ne_postingRefused _ _ hk pl⟩
  · rintro rfl
    exact hgiven .refusedClosed rfl
  · rintro rfl
    exact hgiven .refusedHalted rfl
  · rintro rfl
    exact hreport .unmapped .unmapped rfl rfl
  · rintro pl rfl
    exact hreport .unmapped .unmapped rfl rfl
  · rintro pl rfl
    exact hreport .denied .accessDenied rfl rfl

end Sys2Proof.Machine
end

section
/-! PROOF. The active bank stays valid and the settings stay in range (R7, R26, R146, R147): most commands leave both
alone, the resets give them their power-on values, COMMIT takes a staging bank that validation passed, and a MGMT_WRITE
checks every word against its object's range. -/

namespace Sys2Proof.Machine

/-! ## What an execution answers -/

/-- Every next state that the outcome answers has the property. -/
def Answers (o : Host.Outcome State Fault Refusal) (P : State → Prop) : Prop := ∀ t, o = .next t → P t

@[simp] theorem answers_next (s : State) (P : State → Prop) : Answers (.next s) P ↔ P s :=
  ⟨fun h => h s rfl, fun h t ht => by cases ht; exact h⟩

@[simp] theorem answers_fault (f : Fault) (P : State → Prop) : Answers (.fault f) P :=
  fun _ h => by cases h

theorem Answers.mono {o : Host.Outcome State Fault Refusal} {P Q : State → Prop} (h : Answers o P)
    (hPQ : ∀ t, P t → Q t) : Answers o Q := fun t ht => hPQ t (h t ht)

/-! ## The active bank and the settings left alone -/

/-- R147: the five settings whose range excludes 0. -/
def State.settings (s : State) : BitVec 12 × BitVec 4 × BitVec 8 × BitVec 4 × Nibble :=
  (s.mu.accessTimeout, s.mu.retryLimit, s.mu.retryBackoff, s.mu.fairness, s.mu.managers)

/-- The active bank and the five settings of `t` are those of `s`. -/
def State.KeepsConfig (s t : State) : Prop := t.wd.active = s.wd.active ∧ t.settings = s.settings

theorem State.KeepsConfig.refl (s : State) : s.KeepsConfig s := ⟨rfl, rfl⟩

theorem State.KeepsConfig.trans {s t u : State} (h : s.KeepsConfig t) (h' : t.KeepsConfig u) : s.KeepsConfig u :=
  ⟨h'.1.trans h.1, h'.2.trans h.2⟩

/-! ### Reports, replies and slots -/

theorem State.report_keepsConfig (r : Report) (s : State) : s.KeepsConfig (s.report r) := by
  simp [State.KeepsConfig, State.settings]

theorem State.release_keepsConfig (p : Pool) (s : State) : s.KeepsConfig (s.release p) := by
  simp [State.KeepsConfig, State.settings]

theorem State.consume_keepsConfig (p : Pool) (s : State) : s.KeepsConfig (s.consume p) := by
  simp [State.KeepsConfig, State.settings]

theorem State.endSession_keepsConfig (s : State) : s.KeepsConfig s.endSession := by
  simp [State.KeepsConfig, State.settings]

theorem State.placeReply_keepsConfig (k : Fin 2) (m : MgmtReply) (s : State) : s.KeepsConfig (s.placeReply k m) := by
  simp [State.KeepsConfig, State.settings]

theorem State.freeEntry_keepsConfig (i : Fin 24) (s : State) : s.KeepsConfig (s.freeEntry i) := by
  simp [State.KeepsConfig, State.settings]

theorem State.enterHalted_keepsConfig (s : State) : s.KeepsConfig s.enterHalted := by
  simp [State.KeepsConfig, State.settings]

theorem State.denyRequest_keepsConfig (k : Fin 2) (r : MgmtRequest) (s : State) : s.KeepsConfig (s.denyRequest k r) :=
  (s.report_keepsConfig _).trans (State.placeReply_keepsConfig _ _ _)

theorem State.reportRefusal_keepsConfig (posted : Bool) (q : DataRequest) (g : BitVec 8) (o : DecodeOutcome) (s : State) :
    s.KeepsConfig (s.reportRefusal posted q g o) := by
  unfold State.reportRefusal
  split
  · exact s.report_keepsConfig _
  · exact .refl s

/-! ### Received packets -/

theorem State.discardWrite_keepsConfig (q : DataRequest) (o : DecodeOutcome) (s : State) :
    s.KeepsConfig (s.discardWrite q o) := by
  cases o with
  | halted => simp [State.discardWrite, State.KeepsConfig, State.settings]
  | accepted p o => exact .refl s
  | _ => exact (s.release_keepsConfig _).trans (State.reportRefusal_keepsConfig _ _ _ _ _)

theorem State.takePosted_keepsConfig (q : DataRequest) (s : State) : Answers (s.takePosted q) s.KeepsConfig := by
  cases hd : decode s.mu.port s.wd.active q with
  | accepted p o =>
    simp only [State.takePosted, hd, State.appendRecord]
    split
    · exact (answers_next _ _).mpr (.refl s)
    · exact answers_fault _ _
  | _ =>
    rw [State.takePosted_refused hd rfl, answers_next]
    exact s.discardWrite_keepsConfig _ _

theorem State.allocate_keepsConfig (i : Fin 24) (q : DataRequest) (o : DecodeOutcome) (s : State) :
    s.KeepsConfig (s.allocate i q o) := by
  simp [State.KeepsConfig, State.settings]

theorem State.takeNonPosted_keepsConfig (q : DataRequest) (p : Fin 24) (s : State) :
    Answers (s.takeNonPosted q p) s.KeepsConfig := by
  unfold State.takeNonPosted
  split
  · exact (answers_next _ _).mpr ((s.release_keepsConfig _).trans (State.report_keepsConfig _ _))
  · split
    · exact answers_fault _ _
    · exact (answers_next _ _).mpr ((s.allocate_keepsConfig _ _ _).trans (State.reportRefusal_keepsConfig _ _ _ _ _))

theorem State.takeManagement_keepsConfig (r : MgmtRequest) (s : State) :
    Answers (s.takeManagement r) s.KeepsConfig := by
  unfold State.takeManagement
  split
  · split
    · exact answers_fault _ _
    · exact (answers_next _ _).mpr (.refl s)
  · exact (answers_next _ _).mpr (.refl s)

theorem State.route_keepsConfig (k : DownstreamKind) (h : Header) (data : List Word) (p : Fin 24) (s : State) :
    Answers (s.route k h data p) s.KeepsConfig := by
  match k with
  | .data .writePosted => exact s.takePosted_keepsConfig _
  | .data .writeConfirmed => exact s.takeNonPosted_keepsConfig _ _
  | .data .read => exact s.takeNonPosted_keepsConfig _ _
  | .mgmt _ => exact s.takeManagement_keepsConfig _

theorem State.chargePacket_keepsConfig (k : DownstreamKind) (h : Header) (data : List Word) (p : Fin 24) (s : State) :
    Answers (s.chargePacket k h data p) s.KeepsConfig := by
  unfold State.chargePacket
  split
  · exact (answers_next _ _).mpr (s.report_keepsConfig _)
  · split
    · exact (State.route_keepsConfig _ _ _ _ _).mono fun t => (s.consume_keepsConfig _).trans
    · exact (answers_next _ _).mpr
        (((s.consume_keepsConfig _).trans (State.release_keepsConfig _ _)).trans (State.report_keepsConfig _ _))

theorem execDownstreamPacket_keepsConfig (words : List Word) (p : Fin 24) (s : State) :
    Answers (execDownstreamPacket words p s) s.KeepsConfig := by
  unfold execDownstreamPacket State.takePacket
  split
  · exact (answers_next _ _).mpr (.refl s)
  · split
    · exact (answers_next _ _).mpr ((s.report_keepsConfig _).trans (State.endSession_keepsConfig _))
    · split
      · exact (answers_next _ _).mpr (s.report_keepsConfig _)
      · exact s.chargePacket_keepsConfig _ _ _ _

/-! ### The local bus -/

theorem State.retireHead_keepsConfig (s : State) : s.KeepsConfig s.retireHead := by
  unfold State.retireHead
  split <;> simp [State.KeepsConfig, State.settings]

theorem State.finishEntry_keepsConfig (i : Fin 24) (st : Status) (s : State) : s.KeepsConfig (s.finishEntry i st) := by
  unfold State.finishEntry
  split <;> simp [State.KeepsConfig, State.settings]

theorem State.handBack_keepsConfig (st : Status) (s : State) : s.KeepsConfig (s.handBack st) := by
  unfold State.handBack
  split
  · exact .refl s
  · exact s.retireHead_keepsConfig
  · exact s.finishEntry_keepsConfig _ _

theorem State.releaseBus_keepsConfig (s : State) : s.KeepsConfig s.releaseBus := ⟨rfl, rfl⟩

theorem State.clearCurrent_keepsConfig (s : State) : s.KeepsConfig s.clearCurrent := ⟨rfl, rfl⟩

theorem State.endOk_keepsConfig (s : State) : s.KeepsConfig s.endOk :=
  (s.releaseBus_keepsConfig.trans (State.handBack_keepsConfig _ _)).trans (State.clearCurrent_keepsConfig _)

theorem State.reportOption_keepsConfig (r : Option Report) (s : State) : s.KeepsConfig (s.reportOption r) := by
  cases r with
  | none => exact .refl s
  | some r => exact s.report_keepsConfig r

theorem State.endFailed_keepsConfig (f : Failure) (s : State) : s.KeepsConfig (s.endFailed f) :=
  ((s.releaseBus_keepsConfig.trans (State.handBack_keepsConfig _ _)).trans (State.clearCurrent_keepsConfig _)).trans
    (State.reportOption_keepsConfig _ _)

theorem State.acknowledge_keepsConfig (it : Item) (lanes : Word) (parity : Nibble) (s : State) :
    s.KeepsConfig (s.acknowledge it lanes parity) := by
  simp [State.KeepsConfig, State.settings]

theorem State.takeAck_keepsConfig (it : Item) (lanes : Word) (parity : Nibble) (s : State) :
    s.KeepsConfig (s.takeAck it lanes parity) := by
  unfold State.takeAck State.endLastWord
  split
  · simp [State.KeepsConfig, State.settings]
  · refine (s.acknowledge_keepsConfig it lanes parity).trans ?_
    split
    · exact State.endFailed_keepsConfig _ _
    · exact State.endOk_keepsConfig _

theorem State.retryHead_keepsConfig (s : State) : s.KeepsConfig s.retryHead := by
  unfold State.retryHead
  split
  · exact .refl s
  · split <;> simp [State.KeepsConfig, State.settings]

theorem State.retryEntry_keepsConfig (i : Fin 24) (s : State) : s.KeepsConfig (s.retryEntry i) := by
  unfold State.retryEntry
  split
  · exact s.freeEntry_keepsConfig i
  · split <;> simp [State.KeepsConfig, State.settings]

theorem State.retryWithin_keepsConfig (s : State) : s.KeepsConfig s.retryWithin := by
  unfold State.retryWithin
  split
  · exact .refl s
  · exact s.retryHead_keepsConfig
  · exact s.retryEntry_keepsConfig _

theorem State.takeRetry_keepsConfig (it : Item) (s : State) : s.KeepsConfig (s.takeRetry it) := by
  unfold State.takeRetry
  split
  · exact s.endFailed_keepsConfig _
  · exact (s.releaseBus_keepsConfig.trans (State.retryWithin_keepsConfig _)).trans (State.clearCurrent_keepsConfig _)

/-! ### The upstream link -/

theorem State.chooseUpstream_keepsConfig (s : State) : s.KeepsConfig s.chooseUpstream := by
  unfold State.chooseUpstream State.chooseData
  (repeat' split) <;> simp [State.KeepsConfig, State.settings]

/-! ## Properties kept -/

/-- A valid active bank stays valid, and settings in range stay in range. -/
def State.KeepsValid (s t : State) : Prop :=
  (s.ActiveBankValid → t.ActiveBankValid) ∧ (s.SettingsInRange → t.SettingsInRange)

theorem State.KeepsConfig.keepsValid {s t : State} (h : s.KeepsConfig t) : s.KeepsValid t := by
  obtain ⟨hbank, hsettings⟩ := h
  refine ⟨fun hs => ?_, fun hs => ?_⟩
  · unfold State.ActiveBankValid
    rwa [hbank]
  · simp only [State.settings, Prod.mk.injEq] at hsettings
    simpa only [State.SettingsInRange, hsettings] using hs

theorem State.KeepsValid.trans {s t u : State} (h : s.KeepsValid t) (h' : t.KeepsValid u) : s.KeepsValid u :=
  ⟨h'.1 ∘ h.1, h'.2 ∘ h.2⟩

/-! ### The resets -/

theorem State.powerOnReset_keepsValid (s : State) : s.KeepsValid { State.reset with pending := s.pending } :=
  ⟨fun _ => State.reset_activeBankValid, fun _ => State.reset_settingsInRange⟩

/-- R157: the power-on values, for the active bank and the settings. -/
theorem State.partReset_keepsValid (s : State) : s.KeepsValid s.partReset :=
  ⟨fun _ => State.reset_activeBankValid, fun _ => State.reset_settingsInRange⟩

/-! ### Management requests -/

/-- R141, R144: what holds of a state that no request changes, of one after a denied request, and of one after the
command's own effect on a request it selects, holds after the command. -/
theorem State.executeIf_induct {P : State → Prop} {s : State} {sel : MgmtRequest → Bool}
    {body : Fin 2 → MgmtRequest → State → State} (hsame : P s) (hdeny : ∀ k r, P (s.denyRequest k r))
    (hbody : ∀ k r, P (body k r s)) : P (s.executeIf sel body) := by
  unfold State.executeIf
  split
  · exact hsame
  · split
    · split
      · exact hbody _ _
      · exact hdeny _ _
    · exact hsame

/-- A management command keeps what its own effect keeps. -/
theorem State.executeIf_keepsValid {s : State} {sel : MgmtRequest → Bool}
    {body : Fin 2 → MgmtRequest → State → State} (hbody : ∀ k r, s.KeepsValid (body k r s)) :
    Answers (.next (s.executeIf sel body)) s.KeepsValid :=
  (answers_next _ _).mpr (State.executeIf_induct (State.KeepsConfig.refl s).keepsValid
    (fun k r => (s.denyRequest_keepsConfig k r).keepsValid) hbody)

theorem State.setPort_keepsConfig (p : PortState) (s : State) : s.KeepsConfig (s.setPort p) := ⟨rfl, rfl⟩

theorem State.performOpen_keepsConfig (k : Fin 2) (r : MgmtRequest) (s : State) : s.KeepsConfig (s.performOpen k r) := by
  have hopened : s.KeepsConfig ((s.setPort .opened).placeReply k (doneReply [])) :=
    (s.setPort_keepsConfig .opened).trans (State.placeReply_keepsConfig k _ _)
  unfold State.performOpen
  split
  · exact hopened
  · exact s.placeReply_keepsConfig k _
  · split
    · exact s.placeReply_keepsConfig k _
    · exact hopened

theorem State.performClose_keepsConfig (k : Fin 2) (r : MgmtRequest) (s : State) :
    s.KeepsConfig (s.performClose k r) := by
  unfold State.performClose
  split
  · exact (s.setPort_keepsConfig .closed).trans (State.placeReply_keepsConfig k _ _)
  · exact s.placeReply_keepsConfig k _
  · exact s.placeReply_keepsConfig k _

theorem State.performClearErrors_keepsConfig (k : Fin 2) (r : MgmtRequest) (s : State) :
    s.KeepsConfig (s.performClearErrors k r) := by
  unfold State.performClearErrors
  split
  · exact s.placeReply_keepsConfig k _
  · split <;> exact s.placeReply_keepsConfig k _

/-- R24: the staging bank alone is written. -/
theorem State.performDiscardStaging_keepsConfig (k : Fin 2) (r : MgmtRequest) (s : State) :
    s.KeepsConfig (s.performDiscardStaging k r) := by
  simp [State.performDiscardStaging, State.KeepsConfig, State.settings]

theorem State.performResetPart_keepsValid (k : Fin 2) (r : MgmtRequest) (s : State) :
    s.KeepsValid (s.performResetPart k r) := by
  unfold State.performResetPart
  split
  · exact s.partReset_keepsValid
  · exact (State.KeepsConfig.refl s).keepsValid
  · exact (State.KeepsConfig.refl s).keepsValid

/-- R26, R27: a bank that becomes active has passed validation. -/
theorem State.swapBanks_keepsValid {s : State} (h : validate s.wd.staging = none) : s.KeepsValid s.swapBanks :=
  ⟨fun _ => (validate_eq_none s.wd.staging).mp h, fun hs => hs⟩

theorem State.performCommit_keepsValid (k : Fin 2) (r : MgmtRequest) (s : State) :
    s.KeepsValid (s.performCommit k r) := by
  unfold State.performCommit
  split
  · exact (s.placeReply_keepsConfig k _).keepsValid
  · split
    · exact (s.placeReply_keepsConfig k _).keepsValid
    · next hvalid =>
      have hswap := State.swapBanks_keepsValid hvalid
      split
      · exact hswap.trans (State.placeReply_keepsConfig k _ _).keepsValid
      · exact hswap

/-! ### Writes of objects (R146, R180) -/

/-- R146: every word of a write that passes its checks is in its object's range. -/
theorem checkWrites_inRange {l : List (Nat × Word)} {ws : List (ObjectId × Word)} (h : checkWrites l = .ok ws) :
    ∀ ow ∈ ws, ow.1.inRange ow.2 = true := by
  induction l generalizing ws with
  | nil =>
    cases h
    exact fun _ hmem => absurd hmem List.not_mem_nil
  | cons iw l ih =>
    obtain ⟨i, w⟩ := iw
    unfold checkWrites at h
    split at h
    · cases h
    · next o ho =>
      split at h
      · cases h
      · next os hos =>
        cases h
        refine List.forall_mem_cons.mpr ⟨?_, ih hos⟩
        obtain ⟨hobject, hpasses⟩ := (checkWrite_ok_iff i w o).mp ho
        simp only [writeFault, hobject] at hpasses
        grind

theorem State.writeObject_active (o : ObjectId) (w : Word) (s : State) :
    (s.writeObject o w).wd.active = s.wd.active := by
  cases o <;> rfl

/-- R180: a word in its object's range leaves the settings in theirs. -/
theorem State.writeObject_keepsValid {o : ObjectId} {w : Word} (h : o.inRange w = true) (s : State) :
    s.KeepsValid (s.writeObject o w) := by
  refine ⟨fun hs => ?_, fun hs => ?_⟩
  · unfold State.ActiveBankValid
    rwa [State.writeObject_active]
  · obtain ⟨htimeout, hlimit, hbackoff, hfairness, hmanagers⟩ := hs
    cases o with
    | busTiming =>
      simp only [ObjectId.inRange, Bool.and_eq_true, bne_iff_ne] at h
      obtain ⟨htimeout', hlimit'⟩ := h
      exact ⟨htimeout', hlimit', hbackoff, hfairness, hmanagers⟩
    | policy =>
      simp only [ObjectId.inRange, Bool.and_eq_true, bne_iff_ne] at h
      obtain ⟨⟨hbackoff', hfairness'⟩, hmanagers'⟩ := h
      exact ⟨htimeout, hlimit, hbackoff', hfairness', hmanagers'⟩
    | _ => exact ⟨htimeout, hlimit, hbackoff, hfairness, hmanagers⟩

theorem State.writeObjects_keepsValid {ws : List (ObjectId × Word)} (h : ∀ ow ∈ ws, ow.1.inRange ow.2 = true)
    (s : State) : s.KeepsValid (s.writeObjects ws) := by
  unfold State.writeObjects
  induction ws generalizing s with
  | nil => exact (State.KeepsConfig.refl s).keepsValid
  | cons ow ws ih =>
    obtain ⟨hfirst, hrest⟩ := List.forall_mem_cons.mp h
    exact (s.writeObject_keepsValid hfirst).trans (ih hrest _)

theorem State.haltIfEnabled_keepsConfig (before : Bool) (s : State) : s.KeepsConfig (s.haltIfEnabled before) := by
  unfold State.haltIfEnabled
  split
  · exact s.enterHalted_keepsConfig
  · exact .refl s

theorem State.performWrite_keepsValid (k : Fin 2) (r : MgmtRequest) (s : State) :
    s.KeepsValid (s.performWrite k r) := by
  unfold State.performWrite
  split
  · exact (s.placeReply_keepsConfig k _).keepsValid
  · next ws hws =>
    have hwritten := s.writeObjects_keepsValid (checkWrites_inRange hws)
    exact hwritten.trans ((State.haltIfEnabled_keepsConfig _ _).trans (State.placeReply_keepsConfig k _ _)).keepsValid

/-! ## Every command -/

theorem execLinkUp_keepsConfig (s : State) : Answers (execLinkUp s) s.KeepsConfig := by
  unfold execLinkUp
  split <;> simp [State.KeepsConfig, State.settings]

theorem execResetPartTakesEffect_keepsValid (s : State) : Answers (execResetPartTakesEffect s) s.KeepsValid := by
  unfold execResetPartTakesEffect
  split <;> rw [answers_next]
  · exact s.partReset_keepsValid
  all_goals exact (State.KeepsConfig.refl s).keepsValid

theorem execArbitrationDecision_keepsConfig (s : State) : Answers (execArbitrationDecision s) s.KeepsConfig := by
  unfold execArbitrationDecision
  split <;> simp [State.KeepsConfig, State.settings]

theorem execBusGrant_keepsConfig (s : State) : Answers (execBusGrant s) s.KeepsConfig := by
  unfold execBusGrant State.beginOwning
  split <;> simp [State.KeepsConfig, State.settings]

theorem execAckAnswer_keepsConfig (lanes : Word) (parity : Nibble) (s : State) :
    Answers (execAckAnswer lanes parity s) s.KeepsConfig := by
  unfold execAckAnswer
  split <;> rw [answers_next]
  · exact s.takeAck_keepsConfig _ _ _
  · exact .refl s

theorem execRetryAnswer_keepsConfig (s : State) : Answers (execRetryAnswer s) s.KeepsConfig := by
  unfold execRetryAnswer
  split <;> rw [answers_next]
  · exact s.takeRetry_keepsConfig _
  · exact .refl s

theorem execErrorAnswer_keepsConfig (s : State) : Answers (execErrorAnswer s) s.KeepsConfig := by
  unfold execErrorAnswer
  split <;> rw [answers_next]
  · exact s.endFailed_keepsConfig _
  · exact .refl s

theorem execLocalAccessTimerExpiry_keepsConfig (s : State) :
    Answers (execLocalAccessTimerExpiry s) s.KeepsConfig := by
  unfold execLocalAccessTimerExpiry
  split <;> rw [answers_next]
  · exact s.endFailed_keepsConfig _
  · exact .refl s

theorem execBackoffIntervalExpiry_keepsConfig (item : BackoffItem) (s : State) :
    Answers (execBackoffIntervalExpiry item s) s.KeepsConfig := by
  cases item with
  | head =>
    simp only [execBackoffIntervalExpiry]
    split <;> simp [State.KeepsConfig, State.settings]
  | entry i =>
    simp only [execBackoffIntervalExpiry]
    split <;> simp [State.KeepsConfig, State.settings]

theorem execTransmitChoice_keepsConfig (s : State) : Answers (execTransmitChoice s) s.KeepsConfig := by
  unfold execTransmitChoice
  split <;> rw [answers_next]
  · exact s.chooseUpstream_keepsConfig
  all_goals exact .refl s

theorem execResponseSent_keepsConfig (s : State) : Answers (execResponseSent s) s.KeepsConfig := by
  unfold execResponseSent
  split <;> simp [State.KeepsConfig, State.settings]

theorem execMgmtReplySent_keepsConfig (s : State) : Answers (execMgmtReplySent s) s.KeepsConfig := by
  unfold execMgmtReplySent
  split <;> simp [State.KeepsConfig, State.settings, State.freeSlot]

theorem execUpstreamTransmissionEnds_keepsConfig (s : State) :
    Answers (execUpstreamTransmissionEnds s) s.KeepsConfig := by
  unfold execUpstreamTransmissionEnds
  split <;> simp [State.KeepsConfig, State.settings]

theorem State.writeWordZero_keepsConfig (enables : Nibble) (lanes : Word) (parity : Nibble) (s : State) :
    s.KeepsConfig (s.writeWordZero enables lanes parity) := by
  unfold State.writeWordZero
  (repeat' split) <;> simp [State.KeepsConfig, State.settings]

theorem execNoticePortWrite_keepsConfig (address : Word) (enables : Nibble) (lanes : Word) (parity : Nibble)
    (s : State) : Answers (execNoticePortWrite address enables lanes parity s) s.KeepsConfig := by
  unfold execNoticePortWrite
  split
  · split <;> rw [answers_next]
    · exact s.writeWordZero_keepsConfig _ _ _
    · simp [State.KeepsConfig, State.settings]
  · simp [State.KeepsConfig, State.settings]

theorem execNoticePortRead_keepsConfig (address : Word) (s : State) :
    Answers (execNoticePortRead address s) s.KeepsConfig := by
  unfold execNoticePortRead
  (repeat' split) <;> simp [State.KeepsConfig, State.settings]

/-- R7, R147: each command keeps both, by the lemma of its own effect. -/
theorem exec_keepsValid (c : Instr) (s : State) : Answers (exec c s) s.KeepsValid := by
  have hconfig {o : Host.Outcome State Fault Refusal} (h : Answers o s.KeepsConfig) : Answers o s.KeepsValid :=
    h.mono fun _ => State.KeepsConfig.keepsValid
  cases c with
  | powerOnReset => exact (answers_next _ _).mpr s.powerOnReset_keepsValid
  | linkUp => exact hconfig (execLinkUp_keepsConfig s)
  | lossOfLinkSignal => exact hconfig ((answers_next _ _).mpr s.endSession_keepsConfig)
  | downstreamPacket words p => exact hconfig (execDownstreamPacket_keepsConfig words p s)
  | mgmtRead => exact State.executeIf_keepsValid fun k r => (s.placeReply_keepsConfig k _).keepsValid
  | mgmtWrite => exact State.executeIf_keepsValid fun k r => s.performWrite_keepsValid k r
  | haltOnFatalEnable => exact State.executeIf_keepsValid fun k r => s.performWrite_keepsValid k r
  | openPort => exact State.executeIf_keepsValid fun k r => (s.performOpen_keepsConfig k r).keepsValid
  | closePort => exact State.executeIf_keepsValid fun k r => (s.performClose_keepsConfig k r).keepsValid
  | commit => exact State.executeIf_keepsValid fun k r => s.performCommit_keepsValid k r
  | discardStaging => exact State.executeIf_keepsValid fun k r => (s.performDiscardStaging_keepsConfig k r).keepsValid
  | clearErrors => exact State.executeIf_keepsValid fun k r => (s.performClearErrors_keepsConfig k r).keepsValid
  | resetPart => exact State.executeIf_keepsValid fun k r => s.performResetPart_keepsValid k r
  | unknownCommandCode => exact State.executeIf_keepsValid fun k r => (s.placeReply_keepsConfig k _).keepsValid
  | resetPartTakesEffect => exact execResetPartTakesEffect_keepsValid s
  | arbitrationDecision => exact hconfig (execArbitrationDecision_keepsConfig s)
  | busGrant => exact hconfig (execBusGrant_keepsConfig s)
  | ackAnswer lanes parity => exact hconfig (execAckAnswer_keepsConfig lanes parity s)
  | retryAnswer => exact hconfig (execRetryAnswer_keepsConfig s)
  | errorAnswer => exact hconfig (execErrorAnswer_keepsConfig s)
  | localAccessTimerExpiry => exact hconfig (execLocalAccessTimerExpiry_keepsConfig s)
  | backoffIntervalExpiry item => exact hconfig (execBackoffIntervalExpiry_keepsConfig item s)
  | transmitChoice => exact hconfig (execTransmitChoice_keepsConfig s)
  | responseSent => exact hconfig (execResponseSent_keepsConfig s)
  | mgmtReplySent => exact hconfig (execMgmtReplySent_keepsConfig s)
  | noticePortWrite address enables lanes parity =>
    exact hconfig (execNoticePortWrite_keepsConfig address enables lanes parity s)
  | noticePortRead address => exact hconfig (execNoticePortRead_keepsConfig address s)
  | upstreamTransmissionEnds => exact hconfig (execUpstreamTransmissionEnds_keepsConfig s)

theorem step_keepsValid {s t : State} (h : step s = .next t) : s.KeepsValid t := by
  unfold step at h
  split at h
  · cases h
    exact (State.KeepsConfig.refl s).keepsValid
  · next c rest _ => exact exec_keepsValid c (s.withPending rest) t h

/-- Settles O7: both halves are what a step keeps. -/
theorem bankAndSettingsStayValid : Obligations.BankAndSettingsStayValid :=
  ⟨fun _ _ hs h => (step_keepsValid h).1 hs, fun _ _ hs h => (step_keepsValid h).2 hs⟩

end Sys2Proof.Machine
end

section
/-! PROOF. The banks and COMMIT (Chapter 2): what validation asks of an entry (R2, R26), the copy of the active bank
(R24), the three answers of COMMIT and the swap (R25 to R27), and how an item is counted out of a drain (R30, R31). -/

namespace Sys2Proof.Machine

/-! ## Validation -/

/-- Settles O32: a size code names a size exactly up to 20, and a remainder of 0 is divisibility. -/
theorem validationConditions : Obligations.ValidationConditions := by
  intro e size link translation
  refine ⟨WindowEntry.rejected_of_disabled, fun henabled => ?_⟩
  rw [WindowEntry.rejected, if_pos henabled, WindowEntry.fault, windowSize]
  by_cases hsize : e.sizeCode.toNat ≤ 20
  · rw [if_pos hsize, if_neg (Nat.not_lt.mpr hsize)]
    have hmisaligned (base : Nat) : base % size ≠ 0 ↔ ¬size ∣ base := not_congr Nat.dvd_iff_mod_eq_zero.symm
    exact if_congr Iff.rfl rfl
      (if_congr (hmisaligned link) rfl (if_congr (hmisaligned translation) rfl rfl))
  · rw [if_neg hsize, if_pos (Nat.not_le.mp hsize)]

/-! ## The execution of a command -/

/-- R141, R144: the command of a manager class that the oldest WAITING slot holds has its effect. -/
theorem State.ExecutesCommand.executeIf {s : State} {k : Fin 2} {r : MgmtRequest} {address : WordAddress}
    (h : s.ExecutesCommand k r address) {code : CommandCode} (hcode : CommandCode.ofAddress address = some code)
    (body : Fin 2 → MgmtRequest → State → State) :
    s.executeIf (fun r => r.command == some code) body = body k r s := by
  have hselected : (r.command == some code) = true := by rw [h.command, hcode, beq_self_eq_true]
  obtain ⟨hexecutes, _, _, hmanager⟩ := h
  rw [hexecutes.executeIf, if_pos hselected, if_pos hmanager]

theorem State.ExecutesCommand.placeReply {s t : State} {k : Fin 2} {r : MgmtRequest} {address : WordAddress}
    (h : s.ExecutesCommand k r address) (hslots : t.mu.slots = s.mu.slots) (m : MgmtReply) :
    t.placeReply k m = t.replied k r m := by
  obtain ⟨⟨_, hwaiting, _⟩, _⟩ := h
  exact State.placeReply_waiting m (by rw [hslots, hwaiting])

/-- Settles O33. -/
theorem discardStagingCopiesActive : Obligations.DiscardStagingCopiesActive := fun s _ _ h =>
  congrArg Host.Outcome.next <|
    (h.executeIf rfl State.performDiscardStaging).trans
      (h.placeReply (t := { s with wd := { s.wd with staging := s.wd.active } }) rfl (doneReply []))

/-! ## COMMIT -/

/-- R179: the word of an INVALID_TABLE reply, field by field. -/
theorem place_reason_or_index (why index : BitVec 4) :
    place 8 why ||| place 0 index = 0#20 ++ why ++ 0#4 ++ index := by
  have hwhy : why.toNat % 2 ^ 32 = why.toNat := Nat.mod_eq_of_lt (by omega)
  have hshift : why.toNat <<< 8 % 2 ^ 32 = why.toNat <<< 8 := Nat.mod_eq_of_lt (by omega)
  have hindex : index.toNat % 2 ^ 32 = index.toNat := Nat.mod_eq_of_lt (by omega)
  refine BitVec.eq_of_toNat_eq ?_
  simp only [place, BitVec.toNat_or, BitVec.toNat_shiftLeft, BitVec.toNat_setWidth, BitVec.toNat_append, hwhy, hshift,
    hindex, BitVec.toNat_ofNat, Nat.zero_mod, Nat.zero_shiftLeft, Nat.zero_or, Nat.or_zero, Nat.shiftLeft_zero,
    ← Nat.shiftLeft_add]

/-- R179: the word of a DONE reply to COMMIT is the generation with zero above. -/
theorem generationReply_eq (g : BitVec 8) : generationReply g = ⟨.done, [g.setWidth 32]⟩ := by
  rw [generationReply, doneReply, place, BitVec.shiftLeft_zero]

/-- Settles O31: by the commit state, and while IDLE by what validation finds. -/
theorem commitSwapsOrRefuses : Obligations.CommitSwapsOrRefuses := by
  intro s k r h
  have hexec : exec .commit s = .next (s.performCommit k r) :=
    congrArg Host.Outcome.next (h.executeIf rfl State.performCommit)
  rw [hexec]
  refine ⟨fun hdraining => ?_, fun hidle => ⟨fun i why hwhy hfirst => ?_, fun hvalid => ?_⟩⟩
  · simp only [State.performCommit, hdraining, h.placeReply rfl, bareReply]
  · have hvalidate := validate_eq_some _ i why hwhy hfirst
    simp only [State.performCommit, hidle, hvalidate, h.placeReply rfl, invalidTableReply, place_reason_or_index]
  · intro items swapped
    have hvalidate := (validate_eq_none _).mpr hvalid
    have hitems : s.itemsInFlight = items := Nat.add_comm _ _
    simp only [State.performCommit, hidle, hvalidate, hitems]
    refine ⟨fun hnone => ?_, fun hsome => ?_⟩
    · have hswap : s.swapBanks = swapped .idle := by simp only [State.swapBanks, hitems, if_pos hnone, swapped]
      rw [if_pos hnone, hswap, h.placeReply (t := swapped .idle) rfl, generationReply_eq]
    · have hswap : s.swapBanks = swapped .draining := by simp only [State.swapBanks, hitems, if_neg hsome, swapped]
      rw [if_neg hsome, hswap]
      rfl

/-! ## The drain -/

/-- Table 8-1: a slot holds a COMMIT exactly when it is HELD with a MGMT_COMMAND of code 3. -/
theorem Slot.holdsCommit_iff (q : Slot) :
    q.holdsCommit = true ↔ ∃ r, q = .held r ∧ r.kind = .mgmtCommand ∧ r.address = 3 := by
  have hcode (a : WordAddress) : CommandCode.ofAddress a = some .commit ↔ a = 3 := by
    unfold CommandCode.ofAddress
    grind
  cases q <;> simp [Slot.holdsCommit, hcode]

/-- Settles O59: by whether the item is counted, and whether it is the last. -/
theorem drainCountsOut : Obligations.DrainCountsOut := by
  refine ⟨Slot.holdsCommit_iff, fun s g => ⟨s.countOut_current g, s.countOut_more g, fun hc hg hlast => ?_⟩⟩
  rw [s.countOut_last g hc hg hlast.le]
  refine ⟨fun hnone => State.placeDone_none hnone, fun k r hdrains hheld hkind haddress => ?_⟩
  rw [← generationReply_eq]
  exact State.placeDone_held hheld ((Slot.holdsCommit_iff _).mpr ⟨r, hheld, hkind, haddress⟩) hdrains.2

end Sys2Proof.Machine
end

section
/-! PROOF. Items in flight and the drain (R27, R30 to R32): the generations in flight as one multiset, what the Window
Decoder's count says of it, and what each shared operation does to it. An item that has left its store and has not been
counted out yet is one the decoder is still to be told of. -/

namespace Sys2Proof.Machine

/-! ## The generations in flight -/

/-- What an entry adds to the items in flight: its generation while it is in use. -/
def TrackerEntry.carries (e : TrackerEntry) : Multiset (BitVec 8) := if e.inUse then {e.generation} else 0

theorem TrackerEntry.carries_inUse {e : TrackerEntry} (h : e.inUse = true) : e.carries = {e.generation} := if_pos h

theorem TrackerEntry.carries_unused {e : TrackerEntry} (h : e.inUse = false) : e.carries = 0 :=
  if_neg (ne_true_of_eq_false h)

theorem TrackerEntry.carries_congr {e e' : TrackerEntry} (hinUse : e'.inUse = e.inUse)
    (hgeneration : e'.generation = e.generation) : e'.carries = e.carries := by
  rw [carries, carries, hinUse, hgeneration]

theorem TrackerEntry.mem_carries {e : TrackerEntry} {g : BitVec 8} :
    g ∈ e.carries ↔ e.inUse = true ∧ g = e.generation := by
  cases h : e.inUse
  · simp [carries_unused h]
  · simp [carries_inUse h]

/-- The generations of the records in the Posted Write Queue. -/
def State.queueFlight (s : State) : Multiset (BitVec 8) :=
  (s.pwq.map WriteRecord.generation : List (BitVec 8))

/-- The generations of the tracker entries in use. -/
def State.trackerFlight (s : State) : Multiset (BitVec 8) := ∑ i : Fin 24, s.rt.entries[i].carries

/-- R27: the generations of the items in flight. -/
def State.flight (s : State) : Multiset (BitVec 8) := s.queueFlight + s.trackerFlight

theorem State.flight_congr {s t : State} (hq : t.pwq.map WriteRecord.generation = s.pwq.map WriteRecord.generation)
    (hr : ∀ i : Fin 24, t.rt.entries[i].carries = s.rt.entries[i].carries) : t.flight = s.flight := by
  simp only [flight, queueFlight, trackerFlight, hq, hr]

theorem State.mem_trackerFlight {s : State} {g : BitVec 8} :
    g ∈ s.trackerFlight ↔ ∃ i : Fin 24, s.rt.entries[i].inUse = true ∧ g = s.rt.entries[i].generation := by
  simp only [trackerFlight, Multiset.mem_sum, Finset.mem_univ, true_and, TrackerEntry.mem_carries]

theorem TrackerEntry.countP_carries (p : BitVec 8 → Bool) (l : List TrackerEntry) :
    (l.map carries).sum.countP (fun g => p g = true) = l.countP fun e => e.inUse && p e.generation := by
  induction l with
  | nil => rfl
  | cons e l ih =>
    rw [List.map_cons, List.sum_cons, Multiset.countP_add, ih, List.countP_cons, Nat.add_comm]
    congr 1
    cases h : e.inUse <;> simp [carries, h, Multiset.countP_cons, ← Multiset.cons_zero]

theorem State.trackerFlight_eq_sum (s : State) :
    s.trackerFlight = (s.rt.entries.toList.map TrackerEntry.carries).sum := by
  have hlist : s.rt.entries.toList = (List.finRange 24).map fun i => s.rt.entries[i] :=
    List.ext_getElem (by simp) (by simp)
  rw [hlist, List.map_map, trackerFlight, Fin.sum_univ_def]
  rfl

/-- The count of the items in flight of a kind is that of the records and that of the entries in use. -/
theorem State.countP_flight (p : BitVec 8 → Bool) (s : State) : s.flight.countP (fun g => p g = true) =
    s.pwq.countP (fun r => p r.generation) +
      s.rt.entries.toList.countP (fun e => e.inUse && p e.generation) := by
  rw [flight, Multiset.countP_add, trackerFlight_eq_sum, TrackerEntry.countP_carries, queueFlight, Multiset.coe_countP,
    List.countP_map]
  simp [Function.comp_def]

theorem State.card_flight (s : State) : s.flight.card = s.itemsInFlight := by
  have h := s.countP_flight fun _ => true
  simp only [Multiset.countP_True, Bool.and_true, List.countP_true] at h
  rw [h, State.itemsInFlight, State.inUseCount, State.occupancy, Nat.add_comm]

/-! ## The drain count (R32) -/

/-- The number of items whose generation is not the current one. -/
def WindowDecoder.older (w : WindowDecoder) (items : Multiset (BitVec 8)) : Nat := items.countP (· ≠ w.generation)

theorem WindowDecoder.older_cons (w : WindowDecoder) (g : BitVec 8) (items : Multiset (BitVec 8)) :
    w.older (g ::ₘ items) = w.older items + if g = w.generation then 0 else 1 := by
  simp only [older, Multiset.countP_cons, ne_eq, ite_not]

/-- R32: what the Window Decoder holds when the items are those it is to count. -/
structure WindowDecoder.Counts (w : WindowDecoder) (items : Multiset (BitVec 8)) : Prop where
  recent : ∀ g ∈ items, g = w.generation ∨ g = w.generation - 1
  idle : w.commit = .idle → w.older items = 0 ∧ w.drain = 0
  draining : w.commit = .draining → w.drain = w.older items ∧ 1 ≤ w.drain

theorem State.olderItems_eq (s : State) : s.olderItems = s.wd.older s.flight := by
  have h := s.countP_flight (· != s.wd.generation)
  simp only [bne_iff_ne] at h
  exact h.symm

/-- R32: the law of the drain count, on the multiset of the items in flight. -/
theorem State.drainExact_iff (s : State) : s.DrainExact ↔ s.wd.Counts s.flight := by
  have hmem : (∀ g ∈ s.flight, s.RecentGeneration g) ↔ (∀ r ∈ s.pwq, s.RecentGeneration r.generation) ∧
      ∀ i : Fin 24, s.rt.entries[i].inUse = true → s.RecentGeneration s.rt.entries[i].generation := by
    simp only [State.flight, Multiset.mem_add, or_imp, forall_and, State.mem_trackerFlight, State.queueFlight,
      Multiset.mem_coe, List.mem_map, forall_exists_index, and_imp, forall_apply_eq_imp_iff₂]
    refine and_congr_right' ⟨fun h i hi => h _ i hi rfl, fun h g i hi hg => hg ▸ h i hi⟩
  constructor
  · rintro ⟨hqueue, htracker, hidle, hdraining⟩
    rw [s.olderItems_eq] at hidle hdraining
    exact ⟨hmem.mpr ⟨hqueue, htracker⟩, hidle, hdraining⟩
  · rintro ⟨hrecent, hidle, hdraining⟩
    rw [← s.olderItems_eq] at hidle hdraining
    exact ⟨(hmem.mp hrecent).1, (hmem.mp hrecent).2, hidle, hdraining⟩

/-- R30, R31: an item is counted out. -/
theorem State.countOut_counts {s : State} {g : BitVec 8} {items : Multiset (BitVec 8)} (h : s.wd.Counts (g ::ₘ items)) :
    (s.countOut g).wd.Counts items := by
  obtain ⟨hrecent, hidle, hdraining⟩ := h
  have hrest : ∀ g' ∈ items, g' = s.wd.generation ∨ g' = s.wd.generation - 1 :=
    fun g' hg' => hrecent g' (Multiset.mem_cons_of_mem hg')
  by_cases hsame : s.wd.commit = .idle ∨ g = s.wd.generation
  · rw [State.countOut_current g s hsame]
    refine ⟨hrest, fun hc => ?_, fun hc => ?_⟩
    · obtain ⟨hnone, hdrain⟩ := hidle hc
      rw [WindowDecoder.older_cons] at hnone
      exact ⟨Nat.eq_zero_of_add_eq_zero_right hnone, hdrain⟩
    · have hg : g = s.wd.generation := hsame.resolve_left (by rw [hc]; decide)
      rw [WindowDecoder.older_cons, if_pos hg] at hdraining
      exact hdraining hc
  · obtain ⟨hcommit, hg⟩ := not_or.mp hsame
    have hc : s.wd.commit = .draining := by cases h : s.wd.commit; exacts [absurd h hcommit, rfl]
    obtain ⟨hdrain, _⟩ := hdraining hc
    rw [WindowDecoder.older_cons, if_neg hg] at hdrain
    by_cases hmore : 1 < s.wd.drain
    · rw [State.countOut_more g s hc hg hmore]
      refine ⟨hrest, fun h => absurd (hc.symm.trans h) (by decide), fun _ => ?_⟩
      exact ⟨Nat.sub_eq_of_eq_add hdrain, Nat.le_sub_one_of_lt hmore⟩
    · rw [State.countOut_last g s hc hg (by omega)]
      simp only [State.placeDone_frame]
      have hnone : s.wd.older items = 0 := by omega
      exact ⟨hrest, fun _ => ⟨hnone, rfl⟩, nofun⟩

/-! ## The COMMIT that is held (R29, R31) -/

theorem Slot.holdsCommit_answered (m : MgmtReply) (q : Slot) : (q.answered m).holdsCommit = false := by
  cases q <;> rfl

theorem State.heldCommitDrains_of_none {s : State} (h : ∀ k : Fin 2, s.mu.slots[k].holdsCommit = false) :
    s.HeldCommitDrains :=
  ⟨fun k hk => absurd hk (ne_true_of_eq_false (h k)), fun hk => absurd hk.1 (ne_true_of_eq_false (h 0))⟩

theorem State.HeldCommitDrains.of_slots {s t : State} (h : s.HeldCommitDrains) (hcommit : t.wd.commit = s.wd.commit)
    (hslots : ∀ k : Fin 2, t.mu.slots[k].holdsCommit = true → s.mu.slots[k].holdsCommit = true) : t.HeldCommitDrains :=
  ⟨fun k hk => hcommit.trans (h.1 k (hslots k hk)), fun hk => h.2 ⟨hslots 0 hk.1, hslots 1 hk.2⟩⟩

theorem State.placeReply_holdsCommit (k j : Fin 2) (m : MgmtReply) (s : State)
    (h : (s.placeReply k m).mu.slots[j].holdsCommit = true) : j ≠ k ∧ s.mu.slots[j].holdsCommit = true := by
  rw [State.placeReply_slot] at h
  split at h
  · rw [Slot.holdsCommit_answered] at h
    cases h
  · exact ⟨‹_›, h⟩

/-- R31: after the DONE of an ended drain no slot holds a COMMIT. -/
theorem State.placeDone_holdsCommit {s : State}
    (hone : ¬(s.mu.slots[0].holdsCommit = true ∧ s.mu.slots[1].holdsCommit = true)) (k : Fin 2) :
    s.placeDone.mu.slots[k].holdsCommit = false := by
  refine eq_false_of_ne_true fun hk => ?_
  unfold State.placeDone at hk
  split at hk
  next h0 =>
    obtain ⟨hne, hheld⟩ := State.placeReply_holdsCommit _ _ _ _ hk
    obtain rfl : k = 1 := by omega
    exact hone ⟨h0, hheld⟩
  next h0 =>
    split at hk
    next h1 =>
      obtain ⟨hne, hheld⟩ := State.placeReply_holdsCommit _ _ _ _ hk
      obtain rfl : k = 0 := by omega
      exact h0 hheld
    next h1 =>
      match k with
      | 0 => exact h0 hk
      | 1 => exact h1 hk

theorem State.countOut_heldCommitDrains {s : State} (g : BitVec 8) (h : s.HeldCommitDrains) :
    (s.countOut g).HeldCommitDrains := by
  unfold State.countOut
  split
  · split
    · exact State.heldCommitDrains_of_none
        (State.placeDone_holdsCommit (s := { s with wd := { s.wd with drain := 0, commit := .idle } }) h.2)
    · exact h
  · exact h

/-! ## Moves -/

/-- R29 to R32: both laws of a drain pass from `s` to `t`, that of a held COMMIT in any case and that of the drain count
where `known` holds. The multiset `untold` gives the generations of the items that have left their store in `s` and are
still to be counted out, and `untold'` those in `t`. -/
def State.Moves (known : Prop) (s : State) (untold : Multiset (BitVec 8)) (t : State) (untold' : Multiset (BitVec 8)) :
    Prop :=
  (s.HeldCommitDrains → t.HeldCommitDrains) ∧
    (known → s.wd.Counts (s.flight + untold) → t.wd.Counts (t.flight + untold'))

/-- Both laws pass from `s` to `t`, and every item that has left was counted out. -/
abbrev State.KeepsDrain (known : Prop) (s t : State) : Prop := State.Moves known s 0 t 0

variable {known : Prop}

theorem State.Moves.trans {s t u : State} {m n o : Multiset (BitVec 8)} (h : State.Moves known s m t n)
    (h' : State.Moves known t n u o) : State.Moves known s m u o :=
  ⟨h'.1 ∘ h.1, fun hk => h'.2 hk ∘ h.2 hk⟩

/-- The drain sees no difference between `s` and `t`. -/
structure State.SameDrain (known : Prop) (s t : State) : Prop where
  generation : t.wd.generation = s.wd.generation
  commit : t.wd.commit = s.wd.commit
  drain : t.wd.drain = s.wd.drain
  slots : ∀ k : Fin 2, t.mu.slots[k].holdsCommit = true → s.mu.slots[k].holdsCommit = true
  flight : known → t.flight = s.flight

/-- The drain reads the Window Decoder, the slots, the queue and the tracker alone. -/
theorem State.SameDrain.of_frame {s t : State} (h : t.wd = s.wd ∧ t.pwq = s.pwq ∧ t.rt = s.rt ∧ t.mu = s.mu) :
    State.SameDrain known s t := by
  obtain ⟨hw, hq, hr, hm⟩ := h
  exact ⟨by rw [hw], by rw [hw], by rw [hw], fun k => by rw [hm]; exact id,
    fun _ => State.flight_congr (by rw [hq]) fun i => by rw [hr]⟩

theorem State.SameDrain.moves {s t : State} (h : State.SameDrain known s t) (m : Multiset (BitVec 8)) :
    State.Moves known s m t m := by
  refine ⟨fun hs => hs.of_slots h.commit h.slots, fun hk hs => ?_⟩
  obtain ⟨hrecent, hidle, hdraining⟩ := hs
  have holder : t.wd.older (s.flight + m) = s.wd.older (s.flight + m) := by
    rw [WindowDecoder.older, WindowDecoder.older, h.generation]
  rw [h.flight hk]
  exact ⟨by rwa [h.generation], by rwa [holder, h.commit, h.drain], by rwa [holder, h.commit, h.drain]⟩

theorem State.SameDrain.keepsDrain {s t : State} (h : State.SameDrain known s t) : State.KeepsDrain known s t :=
  h.moves 0

theorem State.KeepsDrain.of_frame {s t : State} (h : t.wd = s.wd ∧ t.pwq = s.pwq ∧ t.rt = s.rt ∧ t.mu = s.mu) :
    State.KeepsDrain known s t := (State.SameDrain.of_frame h).keepsDrain

theorem State.KeepsDrain.refl (s : State) : State.KeepsDrain known s s := .of_frame ⟨rfl, rfl, rfl, rfl⟩

/-- An item leaves its store, and is then one to tell of. -/
theorem State.Moves.leave {s t : State} {gone : Multiset (BitVec 8)} (hw : t.wd = s.wd)
    (hslots : ∀ k : Fin 2, t.mu.slots[k].holdsCommit = true → s.mu.slots[k].holdsCommit = true)
    (hflight : known → s.flight = t.flight + gone) : State.Moves known s 0 t gone := by
  refine ⟨fun hs => hs.of_slots (by rw [hw]) hslots, fun hk hs => ?_⟩
  rwa [add_zero, hflight hk, ← hw] at hs

/-! ## Counting out -/

theorem State.countOut_moves (g : BitVec 8) (m : Multiset (BitVec 8)) (s : State) :
    State.Moves known s (g ::ₘ m) (s.countOut g) m := by
  refine ⟨State.countOut_heldCommitDrains g, fun _ hs => ?_⟩
  have hflight : (s.countOut g).flight = s.flight :=
    State.flight_congr (by simp) fun i => by simp only [State.countOut_frame]
  rw [Multiset.add_cons] at hs
  rw [hflight]
  exact State.countOut_counts hs

theorem State.foldl_countOut_moves (gs : List (BitVec 8)) (s : State) :
    State.Moves known s gs (gs.foldl (fun t g => State.countOut g t) s) 0 := by
  induction gs generalizing s with
  | nil => exact State.KeepsDrain.refl s
  | cons g gs ih => exact (State.countOut_moves g gs s).trans (ih _)

/-- R63: an entry whose order is counted down stays in use. -/
theorem TrackerEntry.oneRetired_inUse (e : TrackerEntry) :
    e.oneRetired.inUse = e.inUse ∧ e.oneRetired.generation = e.generation := by
  unfold TrackerEntry.oneRetired
  split
  next h => refine ⟨?_, rfl⟩; simp only [TrackerEntry.inUse, h]; split <;> rfl
  next => exact ⟨rfl, rfl⟩

theorem State.orderingNotice_flight (s : State) : s.orderingNotice.flight = s.flight :=
  State.flight_congr (by simp) fun i => by
    obtain ⟨hinUse, hgeneration⟩ := s.rt.entries[i].oneRetired_inUse
    simp only [State.orderingNotice, mapAll_getElem]
    exact TrackerEntry.carries_congr hinUse hgeneration

theorem State.release_sameDrain (p : Pool) (s : State) : State.SameDrain known s (s.release p) := .of_frame (by simp)

/-- R48: a record that has left the queue retires. -/
theorem State.retirement_moves (g : BitVec 8) (m : Multiset (BitVec 8)) (s : State) :
    State.Moves known s (g ::ₘ m) (s.retirement g) m := by
  have hnotice : State.SameDrain known (s.release .posted) (s.release .posted).orderingNotice :=
    ⟨by simp, by simp, by simp, fun k => by simp, fun _ => State.orderingNotice_flight _⟩
  exact (((s.release_sameDrain .posted).moves _).trans (hnotice.moves _)).trans (State.countOut_moves g m _)

theorem State.discardRecord_moves (r : WriteRecord) (m : Multiset (BitVec 8)) (s : State) :
    State.Moves known s (r.generation ::ₘ m) (s.discardRecord r) m :=
  (State.retirement_moves r.generation m s).trans
    ((State.SameDrain.of_frame (t := (s.retirement r.generation).countDiscard) (by simp)).moves _)

theorem State.foldl_discardRecord_moves (l : List WriteRecord) (s : State) :
    State.Moves known s ((l.map WriteRecord.generation : List (BitVec 8)) : Multiset (BitVec 8))
      (l.foldl State.discardRecord s) 0 := by
  induction l generalizing s with
  | nil => exact State.KeepsDrain.refl s
  | cons r l ih => exact (State.discardRecord_moves r _ s).trans (ih _)

/-! ## The entry to HALTED and error reports (R52, R76, R152) -/

/-- R52: the records that are not ACTIVE leave the queue and are counted out one by one. -/
theorem State.discardWaiting_keepsDrain (s : State) : State.KeepsDrain known s s.discardWaiting := by
  unfold State.discardWaiting
  refine State.Moves.trans ?_ (State.foldl_discardRecord_moves _ _)
  refine State.Moves.leave rfl (fun _ => id) fun _ => ?_
  have hsplit := List.filter_append_perm (fun r : WriteRecord => r.state == .active) s.pwq
  have hqueue := Multiset.coe_eq_coe.mpr (hsplit.map WriteRecord.generation)
  rw [List.map_append, ← Multiset.coe_add] at hqueue
  simp only [State.flight, State.queueFlight, State.trackerFlight, ← hqueue, bne]
  exact add_right_comm _ _ _

theorem TrackerEntry.inUse_of_state {e : TrackerEntry} {st : EntryState} (h : e.state = st) (hst : st ≠ .free) :
    e.inUse = true := by
  rw [inUse, h, bne_iff_ne]
  exact hst

/-- R76. -/
theorem TrackerEntry.inUse_of_waits {e : TrackerEntry} (h : e.waits = true) : e.inUse = true := by
  rw [inUse, bne_iff_ne]
  intro hfree
  rw [waits, hfree] at h
  exact absurd h (by decide)

/-- R76: a waiting entry that completes stays in use. -/
theorem TrackerEntry.completeWaiting_inUse (e : TrackerEntry) (st : Status) :
    (if e.waits then e.completed st else e).inUse = e.inUse ∧
      (if e.waits then e.completed st else e).generation = e.generation := by
  split
  next h => exact ⟨(TrackerEntry.inUse_of_waits h).symm, rfl⟩
  next => exact ⟨rfl, rfl⟩

theorem State.completeWaiting_inUse (i : Fin 24) (s : State) :
    s.completeWaiting.rt.entries[i].inUse = s.rt.entries[i].inUse ∧
      s.completeWaiting.rt.entries[i].generation = s.rt.entries[i].generation := by
  simp only [State.completeWaiting, mapAll_getElem]
  exact TrackerEntry.completeWaiting_inUse _ _

theorem State.completeWaiting_sameDrain (s : State) : State.SameDrain known s s.completeWaiting :=
  ⟨by simp, by simp, by simp, fun k => by simp, fun _ => State.flight_congr (by simp) fun i =>
    TrackerEntry.carries_congr (State.completeWaiting_inUse i s).1 (State.completeWaiting_inUse i s).2⟩

theorem State.setPort_keepsDrain (p : PortState) (s : State) : State.KeepsDrain known s (s.setPort p) :=
  State.SameDrain.keepsDrain ⟨rfl, rfl, rfl, fun _ => id, fun _ => rfl⟩

theorem State.enterHalted_keepsDrain (s : State) : State.KeepsDrain known s s.enterHalted :=
  ((s.setPort_keepsDrain .halted).trans (State.discardWaiting_keepsDrain _)).trans
    (State.completeWaiting_sameDrain _).keepsDrain

theorem State.fatalRecorded_keepsDrain (s : State) : State.KeepsDrain known s s.fatalRecorded := by
  unfold State.fatalRecorded
  split
  · exact s.enterHalted_keepsDrain
  · exact .refl s

theorem State.report_keepsDrain (r : Report) (s : State) : State.KeepsDrain known s (s.report r) := by
  unfold State.report
  split
  · exact .refl s
  · simp only [State.afterRecording]
    split <;> split
    · exact State.Moves.trans (State.KeepsDrain.of_frame (by simp)) (State.fatalRecorded_keepsDrain _)
    · refine State.Moves.trans ?_ (State.fatalRecorded_keepsDrain _)
      exact State.KeepsDrain.of_frame ⟨rfl, rfl, rfl, rfl⟩
    · exact .of_frame (by simp)
    · exact .of_frame ⟨rfl, rfl, rfl, rfl⟩

/-! ## Entries that change (R56) -/

theorem set_getElem {α : Type} {n : Nat} (v : Vector α n) (i j : Fin n) (a : α) :
    (v.set i a)[j] = if j = i then a else v[j] := by
  simp only [Fin.getElem_fin, Vector.getElem_set, Fin.ext_iff, eq_comm]

/-- One entry of the tracker is replaced. -/
theorem State.trackerFlight_set {s t : State} {i : Fin 24} {e : TrackerEntry}
    (h : t.rt.entries = s.rt.entries.set i e) :
    t.trackerFlight + s.rt.entries[i].carries = s.trackerFlight + e.carries := by
  have hset (j : Fin 24) : t.rt.entries[j] = if j = i then e else s.rt.entries[j] := by
    rw [h, set_getElem]
  have hrest : ∑ j ∈ Finset.univ.erase i, t.rt.entries[j].carries =
      ∑ j ∈ Finset.univ.erase i, s.rt.entries[j].carries :=
    Finset.sum_congr rfl fun j hj => by rw [hset, if_neg (Finset.ne_of_mem_erase hj)]
  rw [State.trackerFlight, State.trackerFlight, ← Finset.add_sum_erase _ _ (Finset.mem_univ i),
    ← Finset.add_sum_erase _ (fun j : Fin 24 => s.rt.entries[j].carries) (Finset.mem_univ i), hrest, hset, if_pos rfl]
  abel

/-- The drain does not see that an entry changes which stays in use, or stays FREE, with its generation. -/
theorem State.SameDrain.of_entry {s t : State} {i : Fin 24} {e : TrackerEntry}
    (h : t.wd = s.wd ∧ t.pwq = s.pwq ∧ t.mu = s.mu) (hr : t.rt.entries = s.rt.entries.set i e)
    (he : known → e.carries = s.rt.entries[i].carries) : State.SameDrain known s t := by
  obtain ⟨hw, hq, hm⟩ := h
  refine ⟨by rw [hw], by rw [hw], by rw [hw], fun k => by rw [hm]; exact id, fun hk => ?_⟩
  have hset := State.trackerFlight_set hr
  rw [he hk, add_left_inj] at hset
  rw [State.flight, State.flight, hset, State.queueFlight, State.queueFlight, hq]

theorem State.updateEntry_sameDrain {i : Fin 24} {f : TrackerEntry → TrackerEntry} {s : State}
    (h : known → (f s.rt.entries[i]).carries = s.rt.entries[i].carries) : State.SameDrain known s (s.updateEntry i f) :=
  .of_entry (by simp) rfl h

/-- R67, R77: an entry in use that completes stays in use. -/
theorem State.completeEntry_sameDrain {i : Fin 24} {s : State} (st : Status)
    (h : known → s.rt.entries[i].inUse = true) : State.SameDrain known s (s.completeEntry i st) :=
  .of_entry (by simp) rfl fun hk => TrackerEntry.carries_congr (h hk).symm rfl

/-- R71, R79: an entry that becomes FREE is counted out. -/
theorem State.freeEntry_keepsDrain {i : Fin 24} {s : State} (h : known → s.rt.entries[i].inUse = true) :
    State.KeepsDrain known s (s.freeEntry i) := by
  unfold State.freeEntry
  refine State.Moves.trans ?_ (State.countOut_moves _ 0 _)
  refine State.Moves.trans ?_ ((State.release_sameDrain .nonPosted _).moves _)
  refine State.Moves.leave rfl (fun _ => id) fun hk => ?_
  have hset := State.trackerFlight_set (s := s)
    (t := { s with rt := { s.rt.setEntry i s.rt.entries[i].freed with
      order := s.rt.order.filter (· != i), completion := s.rt.completion.filter (· != i) } }) rfl
  rw [TrackerEntry.carries_inUse (h hk), TrackerEntry.carries_unused (e := s.rt.entries[i].freed) rfl, add_zero] at hset
  rw [State.flight, State.flight, ← hset, Multiset.cons_zero, add_assoc]
  rfl

/-- An item of the current generation enters its store. -/
theorem State.KeepsDrain.enter {s t : State} (h : t.wd = s.wd ∧ t.mu = s.mu)
    (hflight : t.flight = s.flight + {s.wd.generation}) : State.KeepsDrain known s t := by
  obtain ⟨hw, hm⟩ := h
  refine ⟨fun hs => hs.of_slots (by rw [hw]) fun k => by rw [hm]; exact id, fun _ ⟨hrecent, hidle, hdraining⟩ => ?_⟩
  rw [add_zero] at hrecent hidle hdraining
  have holder : s.wd.older (s.flight + {s.wd.generation}) = s.wd.older s.flight := by
    rw [add_comm, Multiset.singleton_add, WindowDecoder.older_cons, if_pos rfl, Nat.add_zero]
  rw [hw, hflight, add_zero]
  refine ⟨fun g hg => ?_, by rwa [holder], by rwa [holder]⟩
  rcases Multiset.mem_add.mp hg with hg | hg
  · exact hrecent g hg
  · exact .inl (Multiset.mem_singleton.mp hg)

/-- R61, R62: an allocated entry is in use, of the current generation. -/
theorem allocatedEntry_carries (q : DataRequest) (o : DecodeOutcome) (generation arrival : BitVec 8) (occupancy : Nat) :
    (allocatedEntry q o generation arrival occupancy).carries = {generation} := by
  have hentry : (allocatedEntry q o generation arrival occupancy).inUse = true ∧
      (allocatedEntry q o generation arrival occupancy).generation = generation := by
    cases o with
    | accepted p order =>
      cases order with
      | strict => refine ⟨?_, rfl⟩; simp only [allocatedEntry, TrackerEntry.inUse]; split <;> rfl
      | relaxed => exact ⟨rfl, rfl⟩
    | _ => exact ⟨rfl, rfl⟩
  rw [TrackerEntry.carries_inUse hentry.1, hentry.2]

theorem State.allocate_keepsDrain {i : Fin 24} {s : State} (q : DataRequest) (o : DecodeOutcome)
    (h : s.rt.entries[i].inUse = false) : State.KeepsDrain known s (s.allocate i q o) := by
  refine .enter (by simp) ?_
  have hset := State.trackerFlight_set (s := s) (t := s.allocate i q o) rfl
  rw [allocatedEntry_carries, TrackerEntry.carries_unused h, add_zero] at hset
  rw [State.flight, State.flight, hset, add_assoc]
  rfl

/-- R61: the entry found for an allocation is FREE. -/
theorem State.freeEntryFor_unused {preferred i : Fin 24} {s : State} (h : s.freeEntryFor preferred = some i) :
    s.rt.entries[i].inUse = false := by
  unfold State.freeEntryFor at h
  split at h
  next =>
    have hfound := List.find?_some h
    exact (Bool.not_eq_true' _).mp hfound
  next hfree =>
    cases h
    exact eq_false_of_ne_true hfree

/-! ## The end of a session (R78, R159) -/

/-- R58: the allocation order lists the entries in use, each once. -/
def State.OrderListsInUse (s : State) : Prop :=
  s.rt.order.Nodup ∧ ∀ i : Fin 24, i ∈ s.rt.order ↔ s.rt.entries[i].inUse = true

/-- R78: an entry that a session end frees was in use, and any other carries what it did. -/
theorem TrackerEntry.carries_sessionEnded (e : TrackerEntry) :
    e.carries = e.sessionEnded.carries + if e.freedAtSessionEnd then {e.generation} else 0 := by
  unfold TrackerEntry.sessionEnded
  split
  next h =>
    have hinUse : e.inUse = true := (Bool.and_eq_true _ _ ▸ h).1
    rw [carries_inUse hinUse, carries_unused (e := e.freed) rfl, zero_add]
  next =>
    rw [add_zero]
    split
    · exact carries_congr rfl rfl
    · rfl

/-- A list of distinct indices, those that pass a test, gives the sum over all indices that pass it. -/
theorem sum_filter_order {l : List (Fin 24)} {p : Fin 24 → Bool} (hnodup : l.Nodup) (hmem : ∀ i, p i = true → i ∈ l)
    (f : Fin 24 → BitVec 8) :
    (∑ i : Fin 24, if p i then ({f i} : Multiset (BitVec 8)) else 0) = ((l.filter p).map f : List (BitVec 8)) := by
  have hset : Finset.univ.filter (fun i => p i = true) = (l.filter p).toFinset := by
    ext i
    simp only [Finset.mem_filter, Finset.mem_univ, true_and, List.mem_toFinset, List.mem_filter]
    exact ⟨fun h => ⟨hmem i h, h⟩, And.right⟩
  calc (∑ i : Fin 24, if p i then ({f i} : Multiset (BitVec 8)) else 0)
      = ((l.filter p).map fun i => ({f i} : Multiset (BitVec 8))).sum := by
        rw [← Finset.sum_filter, hset, List.sum_toFinset _ (hnodup.filter p)]
    _ = ((((l.filter p).map f : List (BitVec 8)) : Multiset (BitVec 8)).map fun g => {g}).sum := by
        rw [Multiset.map_coe, Multiset.sum_coe, List.map_map]
        rfl
    _ = ((l.filter p).map f : List (BitVec 8)) := Multiset.sum_map_singleton _

/-- R78, R30: the entries that a session end frees are counted out one by one. -/
theorem State.endSession_keepsDrain {s : State} (h : known → s.OrderListsInUse) :
    State.KeepsDrain known s s.endSession := by
  unfold State.endSession
  split
  · exact .refl s
  · dsimp only
    refine State.Moves.trans ?_ (State.foldl_countOut_moves _ _)
    refine State.Moves.leave rfl (fun k hk => ?_) fun hk => ?_
    · have hfree : (Vector.replicate 2 Slot.free)[k] = .free := Vector.getElem_replicate k.isLt
      simp only [ManagementUnit.sessionEnded, hfree] at hk
      exact absurd hk (by decide)
    · obtain ⟨hnodup, hmem⟩ := h hk
      have hgone := sum_filter_order (p := fun i => s.rt.entries[i].freedAtSessionEnd) hnodup (fun i hi =>
        (hmem i).mpr (Bool.and_eq_true _ _ ▸ hi).1) fun i => s.rt.entries[i].generation
      rw [← hgone]
      simp only [State.flight, State.trackerFlight, mapAll_getElem, add_assoc, ← Finset.sum_add_distrib,
        ← TrackerEntry.carries_sessionEnded]
      rfl

/-! ## The swap (R27) -/

/-- R27: the items in flight are all of the older generation after the swap. -/
theorem State.swapBanks_counts {s : State} (hidle : s.wd.commit = .idle) (h : s.wd.Counts s.flight) :
    s.swapBanks.wd.Counts s.flight := by
  have hcurrent : ∀ g ∈ s.flight, g = s.wd.generation := by
    have hnone := Multiset.countP_eq_zero.mp (h.idle hidle).1
    exact fun g hg => not_not.mp (hnone g hg)
  have holder : s.swapBanks.wd.older s.flight = s.itemsInFlight := by
    rw [WindowDecoder.older, ← s.card_flight]
    refine Multiset.countP_eq_card.mpr fun g hg => ?_
    rw [hcurrent g hg]
    simp [State.swapBanks]
  have hcommit : s.swapBanks.wd.commit = if s.itemsInFlight = 0 then .idle else .draining := rfl
  have hdrain : s.swapBanks.wd.drain = s.itemsInFlight := rfl
  refine ⟨fun g hg => .inr ?_, fun hc => ?_, fun hc => ?_⟩
  · rw [hcurrent g hg]
    exact (BitVec.add_sub_cancel _ _).symm
  · rw [hcommit] at hc
    split at hc
    next hnone => rw [holder, hdrain, hnone]; exact ⟨rfl, rfl⟩
    next => cases hc
  · rw [hcommit] at hc
    split at hc
    next => cases hc
    next hsome => rw [holder, hdrain]; exact ⟨rfl, Nat.pos_of_ne_zero hsome⟩

end Sys2Proof.Machine
end

section
/-! PROOF. Every command keeps the laws of a drain (R29 to R32): what each command's effect does to the items in flight,
to the drain count and to a COMMIT that is held. -/

namespace Sys2Proof.Machine

variable {known : Prop}

/-! ## Replies and slots -/

theorem State.placeReply_sameDrain (k : Fin 2) (m : MgmtReply) (s : State) :
    State.SameDrain known s (s.placeReply k m) :=
  ⟨by simp, by simp, by simp, fun j hj => (State.placeReply_holdsCommit k j m s hj).2,
    fun _ => State.flight_congr (by simp) fun i => by simp only [State.placeReply_frame]⟩

/-- A slot takes a state in which it holds no COMMIT. -/
theorem State.SameDrain.of_slot {s t : State} {k : Fin 2} {q : Slot} (h : t.wd = s.wd ∧ t.pwq = s.pwq ∧ t.rt = s.rt)
    (hslots : t.mu.slots = s.mu.slots.set k q) (hq : q.holdsCommit = false) : State.SameDrain known s t := by
  obtain ⟨hw, hp, hr⟩ := h
  refine ⟨by rw [hw], by rw [hw], by rw [hw], fun j hj => ?_,
    fun _ => State.flight_congr (by rw [hp]) fun i => by rw [hr]⟩
  rw [hslots, set_getElem] at hj
  split at hj
  · rw [hq] at hj
    cases hj
  · exact hj

theorem State.KeepsDrain.placeReply {s t : State} (h : State.KeepsDrain known s t) (k : Fin 2) (m : MgmtReply) :
    State.KeepsDrain known s (t.placeReply k m) :=
  h.trans ((t.placeReply_sameDrain k m).keepsDrain)

theorem State.denyRequest_keepsDrain (k : Fin 2) (r : MgmtRequest) (s : State) :
    State.KeepsDrain known s (s.denyRequest k r) :=
  (s.report_keepsDrain _).placeReply k _

/-- A state whose stores and slots are those of a reset has no item in flight, no drain and no COMMIT. -/
theorem State.KeepsDrain.of_reset {s t : State} (hw : t.wd = State.reset.wd) (hp : t.pwq = State.reset.pwq)
    (hr : t.rt = State.reset.rt) (hslots : t.mu.slots = State.reset.mu.slots) : State.KeepsDrain known s t := by
  refine ⟨fun _ => State.reset_heldCommitDrains.of_slots (by rw [hw]) fun k => by rw [hslots]; exact id, fun _ _ => ?_⟩
  have hflight : t.flight = State.reset.flight := State.flight_congr (by rw [hp]) fun i => by rw [hr]
  rw [add_zero, hw, hflight]
  exact (State.drainExact_iff _).mp State.reset_drainExact

/-! ## Received packets -/

theorem State.reportRefusal_keepsDrain (posted : Bool) (q : DataRequest) (g : BitVec 8) (o : DecodeOutcome)
    (s : State) : State.KeepsDrain known s (s.reportRefusal posted q g o) := by
  unfold State.reportRefusal
  split
  · exact s.report_keepsDrain _
  · exact .refl s

theorem State.discardWrite_keepsDrain (q : DataRequest) (o : DecodeOutcome) (s : State) :
    State.KeepsDrain known s (s.discardWrite q o) := by
  cases o with
  | halted => exact .of_frame (by simp [State.discardWrite])
  | accepted p o => exact .refl s
  | _ => exact ((s.release_sameDrain .posted).keepsDrain).trans (State.reportRefusal_keepsDrain _ _ _ _ _)

/-- R39: the appended record is of the current generation. -/
theorem State.appendRecord_keepsDrain (q : DataRequest) (p : Placement) (s : State) :
    Answers (s.appendRecord q p) (State.KeepsDrain known s) := by
  unfold State.appendRecord
  split
  · rw [answers_next]
    refine .enter ⟨rfl, rfl⟩ ?_
    simp only [State.flight, State.queueFlight, List.map_append, ← Multiset.coe_add]
    exact add_right_comm _ _ _
  · exact answers_fault _ _

theorem State.takePosted_keepsDrain (q : DataRequest) (s : State) :
    Answers (s.takePosted q) (State.KeepsDrain known s) := by
  cases hd : decode s.mu.port s.wd.active q with
  | accepted p o =>
    simp only [State.takePosted, hd]
    exact s.appendRecord_keepsDrain q p
  | _ =>
    rw [State.takePosted_refused hd rfl, answers_next]
    exact s.discardWrite_keepsDrain _ _

theorem State.takeNonPosted_keepsDrain (q : DataRequest) (p : Fin 24) (s : State) :
    Answers (s.takeNonPosted q p) (State.KeepsDrain known s) := by
  unfold State.takeNonPosted
  split
  · exact (answers_next _ _).mpr (((s.release_sameDrain .nonPosted).keepsDrain).trans (State.report_keepsDrain _ _))
  · split
    · exact answers_fault _ _
    next i hfound =>
      exact (answers_next _ _).mpr
        ((s.allocate_keepsDrain q _ (State.freeEntryFor_unused hfound)).trans
          (State.reportRefusal_keepsDrain _ _ _ _ _))

theorem State.fillSlot_keepsDrain (k : Fin 2) (r : MgmtRequest) (s : State) :
    State.KeepsDrain known s (s.fillSlot k r) :=
  (State.SameDrain.of_slot (by simp) rfl rfl).keepsDrain

theorem State.takeManagement_keepsDrain (r : MgmtRequest) (s : State) :
    Answers (s.takeManagement r) (State.KeepsDrain known s) := by
  unfold State.takeManagement
  split
  · split
    · exact answers_fault _ _
    · exact (answers_next _ _).mpr (s.fillSlot_keepsDrain 1 r)
  · exact (answers_next _ _).mpr (s.fillSlot_keepsDrain 0 r)

theorem State.route_keepsDrain (k : DownstreamKind) (h : Header) (data : List Word) (p : Fin 24) (s : State) :
    Answers (s.route k h data p) (State.KeepsDrain known s) := by
  match k with
  | .data .writePosted => exact s.takePosted_keepsDrain _
  | .data .writeConfirmed => exact s.takeNonPosted_keepsDrain _ _
  | .data .read => exact s.takeNonPosted_keepsDrain _ _
  | .mgmt _ => exact s.takeManagement_keepsDrain _

theorem State.chargePacket_keepsDrain (k : DownstreamKind) (h : Header) (data : List Word) (p : Fin 24) (s : State) :
    Answers (s.chargePacket k h data p) (State.KeepsDrain known s) := by
  have hconsume : State.KeepsDrain known s (s.consume k.pool) := .of_frame (by simp)
  unfold State.chargePacket
  split
  · exact (answers_next _ _).mpr (s.report_keepsDrain _)
  · split
    · exact (State.route_keepsDrain _ _ _ _ _).mono fun t => hconsume.trans
    · exact (answers_next _ _).mpr
        ((hconsume.trans ((State.release_sameDrain _ _).keepsDrain)).trans (State.report_keepsDrain _ _))

/-- An error report leaves the entries in use as they are: the entry to HALTED completes those that wait. -/
theorem State.report_inUse (r : Report) (i : Fin 24) (s : State) :
    (s.report r).rt.entries[i].inUse = s.rt.entries[i].inUse := by
  have hdiscard (s : State) : s.discardWaiting.rt.entries[i].inUse = s.rt.entries[i].inUse :=
    State.foldl_discardRecord (fun s => s.rt.entries[i].inUse)
      (fun s r => by simp only [State.discardRecord_entry, (TrackerEntry.oneRetired_inUse _).1]) _ _
  have hfatal (s : State) : s.fatalRecorded.rt.entries[i].inUse = s.rt.entries[i].inUse := by
    unfold State.fatalRecorded State.enterHalted
    split
    · exact (State.completeWaiting_inUse i _).1.trans (hdiscard _)
    · rfl
  unfold State.report
  split
  · rfl
  · simp only [State.afterRecording]
    split <;> split <;> simp only [hfatal, State.requestNotice_frame]

theorem State.report_orderListsInUse (r : Report) {s : State} (h : s.OrderListsInUse) :
    (s.report r).OrderListsInUse := by
  have horder : (s.report r).rt.order = s.rt.order := by simp only [State.report_frame]
  refine ⟨by rw [horder]; exact h.1, fun i => ?_⟩
  rw [horder, State.report_inUse]
  exact h.2 i

theorem execDownstreamPacket_keepsDrain (words : List Word) (p : Fin 24) {s : State} (h : known → s.OrderListsInUse) :
    Answers (execDownstreamPacket words p s) (State.KeepsDrain known s) := by
  unfold execDownstreamPacket State.takePacket
  split
  · exact (answers_next _ _).mpr (.refl s)
  · split
    · exact (answers_next _ _).mpr ((s.report_keepsDrain _).trans
        (State.endSession_keepsDrain fun hk => State.report_orderListsInUse _ (h hk)))
    · split
      · exact (answers_next _ _).mpr (s.report_keepsDrain _)
      · exact s.chargePacket_keepsDrain _ _ _ _

/-! ## The local bus -/

/-- The entry of the transaction in progress is in use. -/
def State.CurrentInUse (s : State) : Prop :=
  ∀ i : Fin 24, s.lbe.current = some (.entry i) → s.rt.entries[i].inUse = true

theorem State.setHead_keepsGenerations {f : WriteRecord → WriteRecord} (hf : ∀ r, (f r).generation = r.generation)
    (s : State) : (s.setHead f).pwq.map WriteRecord.generation = s.pwq.map WriteRecord.generation := by
  unfold State.setHead
  split
  · rfl
  next r rest h => rw [h, List.map_cons, List.map_cons, hf]

theorem State.setHead_keepsDrain {f : WriteRecord → WriteRecord} (hf : ∀ r, (f r).generation = r.generation)
    (s : State) : State.KeepsDrain known s (s.setHead f) :=
  State.SameDrain.keepsDrain ⟨by simp, by simp, by simp, fun k => by simp,
    fun _ => State.flight_congr (s.setHead_keepsGenerations hf) fun i => by simp only [State.setHead_frame]⟩

/-- R46, R47: the head leaves the queue and is counted out. -/
theorem State.dropHead_moves {s : State} {r : WriteRecord} {rest : List WriteRecord} (h : s.pwq = r :: rest) :
    State.Moves known s 0 { s with pwq := rest } (r.generation ::ₘ 0) := by
  refine State.Moves.leave rfl (fun _ => id) fun _ => ?_
  simp only [State.flight, State.queueFlight, State.trackerFlight, h, List.map_cons, ← Multiset.cons_coe]
  rw [Multiset.cons_zero, ← Multiset.singleton_add, add_assoc, add_comm]

theorem State.retireHead_keepsDrain (s : State) : State.KeepsDrain known s s.retireHead := by
  unfold State.retireHead
  split
  · exact .refl s
  next r rest h => exact (State.dropHead_moves h).trans (State.retirement_moves _ 0 _)

theorem State.finishEntry_keepsDrain {i : Fin 24} {s : State} (st : Status) (h : known → s.rt.entries[i].inUse = true) :
    State.KeepsDrain known s (s.finishEntry i st) := by
  unfold State.finishEntry
  split
  · exact State.freeEntry_keepsDrain h
  · exact (State.completeEntry_sameDrain st h).keepsDrain

theorem State.handBack_keepsDrain {s : State} (st : Status) (h : known → s.CurrentInUse) :
    State.KeepsDrain known s (s.handBack st) := by
  unfold State.handBack
  split
  · exact .refl s
  · exact s.retireHead_keepsDrain
  next i hc => exact State.finishEntry_keepsDrain st fun hk => h hk i hc

theorem State.releaseBus_keepsDrain (s : State) : State.KeepsDrain known s s.releaseBus := .of_frame (by simp)

theorem State.clearCurrent_keepsDrain (s : State) : State.KeepsDrain known s s.clearCurrent := .of_frame (by simp)

theorem State.endOk_keepsDrain {s : State} (h : known → s.CurrentInUse) : State.KeepsDrain known s s.endOk :=
  (s.releaseBus_keepsDrain.trans (State.handBack_keepsDrain _ h)).trans (State.clearCurrent_keepsDrain _)

theorem State.reportOption_keepsDrain (r : Option Report) (s : State) :
    State.KeepsDrain known s (s.reportOption r) := by
  cases r with
  | none => exact .refl s
  | some r => exact s.report_keepsDrain r

theorem State.endFailed_keepsDrain {s : State} (f : Failure) (h : known → s.CurrentInUse) :
    State.KeepsDrain known s (s.endFailed f) :=
  ((s.releaseBus_keepsDrain.trans (State.handBack_keepsDrain _ h)).trans (State.clearCurrent_keepsDrain _)).trans
    (State.reportOption_keepsDrain _ _)

theorem TrackerEntry.acknowledged_inUse (e : TrackerEntry) (w : Word) :
    (e.acknowledged w).inUse = e.inUse ∧ (e.acknowledged w).generation = e.generation := by
  unfold TrackerEntry.acknowledged
  split <;> exact ⟨rfl, rfl⟩

theorem State.acknowledge_keepsDrain (it : Item) (lanes : Word) (parity : Nibble) (s : State) :
    State.KeepsDrain known s (s.acknowledge it lanes parity) := by
  unfold State.acknowledge
  split
  · exact .refl s
  · exact State.setHead_keepsDrain (by exact fun _ => rfl) s
  next i _ =>
    have hentry (e : TrackerEntry) := TrackerEntry.carries_congr (e.acknowledged_inUse (it.readWord lanes)).1
      (e.acknowledged_inUse (it.readWord lanes)).2
    exact State.Moves.trans (State.KeepsDrain.of_frame (by simp))
      (State.updateEntry_sameDrain fun _ => hentry _).keepsDrain

theorem State.updateEntry_entry (i j : Fin 24) (f : TrackerEntry → TrackerEntry) (s : State) :
    (s.updateEntry i f).rt.entries[j] = if j = i then f s.rt.entries[i] else s.rt.entries[j] :=
  set_getElem _ _ _ _

/-- R93: an acknowledged word leaves the item on the bus, and every entry as much in use as it was. -/
theorem State.acknowledge_currentInUse (it : Item) (lanes : Word) (parity : Nibble) {s : State} (h : s.CurrentInUse) :
    (s.acknowledge it lanes parity).CurrentInUse := by
  unfold State.acknowledge
  split
  · exact h
  · simpa only [State.CurrentInUse, State.setHead_frame] using h
  next i hcurrent =>
    intro j hj
    have hlbe : (s.checkParity i it lanes parity).lbe.current = s.lbe.current := by
      unfold State.checkParity
      split
      · rfl
      · split <;> rfl
    simp only [State.updateEntry_frame, hlbe] at hj
    rw [State.updateEntry_entry]
    simp only [State.checkParity_frame]
    split
    next hji => rw [(TrackerEntry.acknowledged_inUse _ _).1, ← hji]; exact h j hj
    next => exact h j hj

theorem State.takeAck_keepsDrain (it : Item) (lanes : Word) (parity : Nibble) {s : State} (h : known → s.CurrentInUse) :
    State.KeepsDrain known s (s.takeAck it lanes parity) := by
  have hack := s.acknowledge_keepsDrain (known := known) it lanes parity
  have hcurrent := fun hk => State.acknowledge_currentInUse it lanes parity (h hk)
  unfold State.takeAck State.endLastWord
  split
  · exact hack.trans (State.KeepsDrain.of_frame (by simp))
  · split
    · exact hack.trans (State.endFailed_keepsDrain _ hcurrent)
    · exact hack.trans (State.endOk_keepsDrain hcurrent)

/-- R44, R53: the head stays in the queue, or is discarded while HALTED. -/
theorem State.retryHead_keepsDrain (s : State) : State.KeepsDrain known s s.retryHead := by
  unfold State.retryHead
  split
  · exact .refl s
  next r rest h =>
    split
    · exact (State.dropHead_moves h).trans (State.discardRecord_moves r 0 _)
    all_goals
      refine State.SameDrain.keepsDrain ?_
      exact ⟨rfl, rfl, rfl, fun _ => id, fun _ => State.flight_congr (by rw [h]; rfl) fun _ => rfl⟩

/-- R68. -/
theorem State.backoffEntry_keepsDrain {i : Fin 24} {s : State} (h : known → s.rt.entries[i].inUse = true) :
    State.KeepsDrain known s (s.backoffEntry i) := by
  unfold State.backoffEntry
  refine State.Moves.trans ?_ ((State.updateEntry_sameDrain fun hk => ?_).keepsDrain)
  · exact State.KeepsDrain.of_frame ⟨rfl, rfl, rfl, rfl⟩
  · exact TrackerEntry.carries_congr (h hk).symm rfl

theorem State.retryEntry_keepsDrain {i : Fin 24} {s : State} (h : known → s.rt.entries[i].inUse = true) :
    State.KeepsDrain known s (s.retryEntry i) := by
  unfold State.retryEntry
  split
  · exact State.freeEntry_keepsDrain h
  · split
    · exact (State.completeEntry_sameDrain _ h).keepsDrain
    · exact State.backoffEntry_keepsDrain h
    · exact State.backoffEntry_keepsDrain h

theorem State.retryWithin_keepsDrain {s : State} (h : known → s.CurrentInUse) :
    State.KeepsDrain known s s.retryWithin := by
  unfold State.retryWithin
  split
  · exact .refl s
  · exact s.retryHead_keepsDrain
  next i hc => exact State.retryEntry_keepsDrain fun hk => h hk i hc

theorem State.takeRetry_keepsDrain (it : Item) {s : State} (h : known → s.CurrentInUse) :
    State.KeepsDrain known s (s.takeRetry it) := by
  unfold State.takeRetry
  split
  · exact State.endFailed_keepsDrain _ h
  · exact (s.releaseBus_keepsDrain.trans (State.retryWithin_keepsDrain h)).trans (State.clearCurrent_keepsDrain _)

theorem State.grantHead_keepsDrain (s : State) : State.KeepsDrain known s s.grantHead := by
  unfold State.grantHead
  exact State.Moves.trans (State.KeepsDrain.of_frame (by simp)) (State.setHead_keepsDrain (by exact fun _ => rfl) _)

/-- R64, R65: the entry granted was READY, and stays in use. -/
theorem State.grantEntry_keepsDrain {i : Fin 24} {s : State} (h : s.rt.entries[i].inUse = true) :
    State.KeepsDrain known s (s.grantEntry i) := by
  unfold State.grantEntry
  refine State.Moves.trans ?_ ((State.updateEntry_sameDrain fun _ => TrackerEntry.carries_congr ?_ rfl).keepsDrain)
  · exact State.KeepsDrain.of_frame (by simp)
  · simp only [State.request_frame, State.clearMark_frame, h]
    rfl

/-- R85: an entry is granted only while it is offered. -/
theorem State.readyOffered_of_decision {i : Fin 24} {s : State} (h : s.decision = some (.entry i)) :
    s.ReadyOffered i := by
  rw [← s.readyOffered_eq_some_iff]
  unfold State.decision at h
  split at h
  next => cases h
  next j _ hready =>
    cases h
    exact hready
  next j _ hready =>
    split at h
    next => cases h
    next =>
      cases h
      exact hready
  next => cases h

theorem execArbitrationDecision_keepsDrain (s : State) :
    Answers (execArbitrationDecision s) (State.KeepsDrain known s) := by
  unfold execArbitrationDecision
  split <;> rw [answers_next]
  · exact s.grantHead_keepsDrain
  next i _ hdecision =>
    obtain ⟨_, hready, _⟩ := State.readyOffered_of_decision hdecision
    exact State.grantEntry_keepsDrain (TrackerEntry.inUse_of_state hready (by decide))
  all_goals exact .refl s

/-- R45, R69: the item whose backoff interval expires is offered again. -/
theorem execBackoffIntervalExpiry_keepsDrain (item : BackoffItem) (s : State) :
    Answers (execBackoffIntervalExpiry item s) (State.KeepsDrain known s) := by
  cases item with
  | head =>
    simp only [execBackoffIntervalExpiry]
    split <;> rw [answers_next]
    · refine State.Moves.trans ?_ (State.setHead_keepsDrain (fun r => ?_) _)
      · exact State.KeepsDrain.of_frame ⟨rfl, rfl, rfl, rfl⟩
      · split <;> rfl
    · exact .refl s
  | entry i =>
    simp only [execBackoffIntervalExpiry]
    split <;> rw [answers_next]
    · refine State.Moves.trans ?_ ((State.updateEntry_sameDrain fun _ => ?_).keepsDrain)
      · exact State.KeepsDrain.of_frame ⟨rfl, rfl, rfl, rfl⟩
      · split
        next h => exact TrackerEntry.carries_congr (TrackerEntry.inUse_of_state h (by decide)).symm rfl
        next => rfl
    · exact .refl s

theorem execBusGrant_keepsDrain (s : State) : Answers (execBusGrant s) (State.KeepsDrain known s) := by
  unfold execBusGrant State.beginOwning
  split <;> rw [answers_next]
  · exact .of_frame (by simp)
  all_goals exact .refl s

/-! ## The upstream link and the notice port -/

theorem execLinkUp_keepsDrain (s : State) : Answers (execLinkUp s) (State.KeepsDrain known s) := by
  unfold execLinkUp
  split <;> exact (answers_next _ _).mpr (.of_frame (by simp))

theorem State.chooseUpstream_keepsDrain (s : State) : State.KeepsDrain known s s.chooseUpstream := by
  unfold State.chooseUpstream State.chooseData
  (repeat' split) <;> exact .of_frame (by simp)

theorem execTransmitChoice_keepsDrain (s : State) : Answers (execTransmitChoice s) (State.KeepsDrain known s) := by
  unfold execTransmitChoice
  split <;> rw [answers_next]
  · exact s.chooseUpstream_keepsDrain
  all_goals exact .refl s

/-- R71: the entry whose response is sent becomes FREE. -/
theorem execResponseSent_keepsDrain {s : State}
    (h : known → ∀ i : Fin 24, s.link.txSource = some (.response i) → s.rt.entries[i].inUse = true) :
    Answers (execResponseSent s) (State.KeepsDrain known s) := by
  unfold execResponseSent
  split <;> rw [answers_next]
  next i hsource =>
    have hclear : State.KeepsDrain known s s.clearTx := .of_frame (by simp)
    exact hclear.trans (State.freeEntry_keepsDrain fun hk => h hk i hsource)
  all_goals exact .refl s

/-- R142: the slot whose reply is sent becomes FREE. -/
theorem execMgmtReplySent_keepsDrain (s : State) : Answers (execMgmtReplySent s) (State.KeepsDrain known s) := by
  unfold execMgmtReplySent
  split <;> rw [answers_next]
  next k _ =>
    have hfree : State.SameDrain known s (s.clearTx.freeSlot k) := .of_slot (q := .free) (by simp) rfl rfl
    exact (hfree.keepsDrain).trans ((State.release_sameDrain _ _).keepsDrain)
  all_goals exact .refl s

theorem execUpstreamTransmissionEnds_keepsDrain (s : State) :
    Answers (execUpstreamTransmissionEnds s) (State.KeepsDrain known s) := by
  unfold execUpstreamTransmissionEnds
  split <;> rw [answers_next] <;> exact .of_frame (by simp)

theorem execNoticePortWrite_keepsDrain (address : Word) (enables : Nibble) (lanes : Word) (parity : Nibble)
    (s : State) : Answers (execNoticePortWrite address enables lanes parity s) (State.KeepsDrain known s) := by
  unfold execNoticePortWrite State.writeWordZero
  (repeat' split) <;> exact (answers_next _ _).mpr (.of_frame (by simp))

theorem execNoticePortRead_keepsDrain (address : Word) (s : State) :
    Answers (execNoticePortRead address s) (State.KeepsDrain known s) := by
  unfold execNoticePortRead
  (repeat' split) <;> exact (answers_next _ _).mpr (.of_frame (by simp))

/-! ## Management requests -/

/-- R141, R144: a management command keeps what its own effect keeps on the requests it selects. -/
theorem State.executeIf_keepsDrain {s : State} {sel : MgmtRequest → Bool} {body : Fin 2 → MgmtRequest → State → State}
    (hbody : ∀ k r, sel r = true → State.KeepsDrain known s (body k r s)) :
    Answers (.next (s.executeIf sel body)) (State.KeepsDrain known s) := by
  rw [answers_next]
  unfold State.executeIf
  split
  · exact .refl s
  · split
    next hsel =>
      split
      · exact hbody _ _ hsel
      · exact s.denyRequest_keepsDrain _ _
    next => exact .refl s

theorem State.performOpen_keepsDrain (k : Fin 2) (r : MgmtRequest) (s : State) :
    State.KeepsDrain known s (s.performOpen k r) := by
  have hopened := (s.setPort_keepsDrain (known := known) .opened).placeReply k (doneReply [])
  have hrefused (st : MgmtStatus) := (State.KeepsDrain.refl (known := known) s).placeReply k (bareReply st)
  unfold State.performOpen
  split
  · exact hopened
  · exact hrefused _
  · split
    · exact hrefused _
    · exact hopened

theorem State.performClose_keepsDrain (k : Fin 2) (r : MgmtRequest) (s : State) :
    State.KeepsDrain known s (s.performClose k r) := by
  unfold State.performClose
  split
  · exact (s.setPort_keepsDrain .closed).placeReply k _
  all_goals exact (State.KeepsDrain.refl s).placeReply k _

theorem State.performClearErrors_keepsDrain (k : Fin 2) (r : MgmtRequest) (s : State) :
    State.KeepsDrain known s (s.performClearErrors k r) := by
  unfold State.performClearErrors
  split
  · exact (State.KeepsDrain.refl s).placeReply k _
  · split
    · exact State.KeepsDrain.placeReply (.of_frame ⟨rfl, rfl, rfl, rfl⟩) k _
    · exact (State.KeepsDrain.refl s).placeReply k _

/-- R24: the drain does not see the staging bank. -/
theorem State.performDiscardStaging_keepsDrain (k : Fin 2) (r : MgmtRequest) (s : State) :
    State.KeepsDrain known s (s.performDiscardStaging k r) := by
  refine State.KeepsDrain.placeReply ?_ k _
  refine State.SameDrain.keepsDrain ?_
  exact ⟨rfl, rfl, rfl, fun _ => id, fun _ => rfl⟩

theorem State.writeObjects_keepsDrain (ws : List (ObjectId × Word)) (s : State) :
    State.KeepsDrain known s (s.writeObjects ws) := by
  unfold State.writeObjects
  induction ws generalizing s with
  | nil => exact .refl s
  | cons ow ws ih =>
    refine State.Moves.trans (State.SameDrain.keepsDrain ?_) (ih (s.writeObject ow.1 ow.2))
    cases ow.1 <;> exact ⟨rfl, rfl, rfl, fun _ => id, fun _ => rfl⟩

theorem State.haltIfEnabled_keepsDrain (before : Bool) (s : State) :
    State.KeepsDrain known s (s.haltIfEnabled before) := by
  unfold State.haltIfEnabled
  split
  · exact s.enterHalted_keepsDrain
  · exact .refl s

theorem State.performWrite_keepsDrain (k : Fin 2) (r : MgmtRequest) (s : State) :
    State.KeepsDrain known s (s.performWrite k r) := by
  unfold State.performWrite
  split
  · exact (State.KeepsDrain.refl s).placeReply k _
  · refine State.KeepsDrain.placeReply ?_ k _
    exact (s.writeObjects_keepsDrain _).trans (State.haltIfEnabled_keepsDrain _ _)

/-- R156: the slot that RESET_PART holds holds no COMMIT. -/
theorem State.performResetPart_keepsDrain {k : Fin 2} {r : MgmtRequest} (h : r.command = some .resetPart) (s : State) :
    State.KeepsDrain known s (s.performResetPart k r) := by
  have hslot : (Slot.held r).holdsCommit = false := by
    refine eq_false_of_ne_true fun hcommit => ?_
    obtain ⟨_, ⟨rfl⟩, hkind, haddress⟩ := (Slot.holdsCommit_iff _).mp hcommit
    simp only [MgmtRequest.command, hkind, haddress] at h
    exact absurd h (by decide)
  unfold State.performResetPart
  split
  · exact .of_reset rfl rfl rfl rfl
  all_goals
    refine State.SameDrain.keepsDrain ?_
    exact .of_slot ⟨rfl, rfl, rfl⟩ rfl hslot

/-- R26, R27, R29: the swap, in a state that is IDLE; a COMMIT is held only where items are in flight. -/
theorem State.performCommit_keepsDrain (k : Fin 2) (r : MgmtRequest) (s : State) :
    State.KeepsDrain known s (s.performCommit k r) := by
  unfold State.performCommit
  split
  · exact (State.KeepsDrain.refl s).placeReply k _
  next hidle =>
    have hnone (hs : s.HeldCommitDrains) (j : Fin 2) : s.mu.slots[j].holdsCommit = false :=
      eq_false_of_ne_true fun hj => absurd (hidle.symm.trans (hs.1 j hj)) (by decide)
    have hcounts (hs : s.wd.Counts (s.flight + 0)) : s.swapBanks.wd.Counts (s.flight + 0) := by
      rw [add_zero] at hs ⊢
      exact State.swapBanks_counts hidle hs
    split
    · exact (State.KeepsDrain.refl s).placeReply k _
    · split
      · refine State.KeepsDrain.placeReply ?_ k _
        exact ⟨fun hs => State.heldCommitDrains_of_none (hnone hs), fun _ => hcounts⟩
      next hitems =>
        refine ⟨fun hs => ⟨fun _ _ => if_neg hitems, fun hboth => ?_⟩, fun _ => hcounts⟩
        have hother (j : Fin 2) (hj : j ≠ k) : (s.swapBanks.holdSlot k r).mu.slots[j].holdsCommit = false := by
          have hslot : (s.swapBanks.holdSlot k r).mu.slots[j] = s.mu.slots[j] :=
            (set_getElem s.mu.slots k j _).trans (if_neg hj)
          rw [hslot]
          exact hnone hs j
        by_cases hk : k = 0
        · exact absurd hboth.2 (ne_true_of_eq_false (hother 1 (by omega)))
        · exact absurd hboth.1 (ne_true_of_eq_false (hother 0 (by omega)))

/-! ## Every command -/

/-- What the law of the drain count asks of the state before a command, beside the law itself. -/
structure State.ItemsInUse (s : State) : Prop where
  order : s.OrderListsInUse
  current : s.CurrentInUse
  response : ∀ i : Fin 24, s.link.txSource = some (.response i) → s.rt.entries[i].inUse = true

/-- R58, R83, R166. -/
theorem State.Sound.itemsInUse {s : State} (h : s.Sound) : s.ItemsInUse where
  order := ⟨h.tracker.orderNodup, h.tracker.orderMem⟩
  current i hi := TrackerEntry.inUse_of_state ((h.engine.entryActive i).mp hi) (by decide)
  response i hi := by
    have htx := h.link.tx
    rw [State.TxSound, hi] at htx
    have hcomplete := (h.tracker.completionMem i).mp (List.mem_of_mem_head? htx)
    exact TrackerEntry.inUse_of_state hcomplete (by decide)

/-- R29 to R32: each command keeps both laws, by the lemma of its own effect. -/
theorem exec_keepsDrain (c : Instr) (s : State) : Answers (exec c s) (State.KeepsDrain s.ItemsInUse s) := by
  have hcurrent : s.ItemsInUse → s.CurrentInUse := State.ItemsInUse.current
  have hreply (k : Fin 2) (m : MgmtReply) : State.KeepsDrain s.ItemsInUse s (s.placeReply k m) :=
    (State.KeepsDrain.refl s).placeReply k m
  cases c with
  | powerOnReset => exact (answers_next _ _).mpr (.of_reset rfl rfl rfl rfl)
  | linkUp => exact execLinkUp_keepsDrain s
  | lossOfLinkSignal => exact (answers_next _ _).mpr (State.endSession_keepsDrain State.ItemsInUse.order)
  | downstreamPacket words p => exact execDownstreamPacket_keepsDrain words p State.ItemsInUse.order
  | mgmtRead => exact State.executeIf_keepsDrain fun k _ _ => hreply k _
  | mgmtWrite => exact State.executeIf_keepsDrain fun k r _ => s.performWrite_keepsDrain k r
  | haltOnFatalEnable => exact State.executeIf_keepsDrain fun k r _ => s.performWrite_keepsDrain k r
  | openPort => exact State.executeIf_keepsDrain fun k r _ => s.performOpen_keepsDrain k r
  | closePort => exact State.executeIf_keepsDrain fun k r _ => s.performClose_keepsDrain k r
  | commit => exact State.executeIf_keepsDrain fun k r _ => s.performCommit_keepsDrain k r
  | discardStaging => exact State.executeIf_keepsDrain fun k r _ => s.performDiscardStaging_keepsDrain k r
  | clearErrors => exact State.executeIf_keepsDrain fun k r _ => s.performClearErrors_keepsDrain k r
  | resetPart => exact State.executeIf_keepsDrain fun k r hsel => State.performResetPart_keepsDrain (eq_of_beq hsel) s
  | unknownCommandCode => exact State.executeIf_keepsDrain fun k _ _ => hreply k _
  | resetPartTakesEffect =>
    simp only [exec, execResetPartTakesEffect]
    split <;> rw [answers_next]
    · exact .of_reset rfl rfl rfl rfl
    all_goals exact .refl s
  | arbitrationDecision => exact execArbitrationDecision_keepsDrain s
  | busGrant => exact execBusGrant_keepsDrain s
  | ackAnswer lanes parity =>
    simp only [exec, execAckAnswer]
    split <;> rw [answers_next]
    · exact State.takeAck_keepsDrain _ _ _ hcurrent
    · exact .refl s
  | retryAnswer =>
    simp only [exec, execRetryAnswer]
    split <;> rw [answers_next]
    · exact State.takeRetry_keepsDrain _ hcurrent
    · exact .refl s
  | errorAnswer =>
    simp only [exec, execErrorAnswer]
    split <;> rw [answers_next]
    · exact State.endFailed_keepsDrain _ hcurrent
    · exact .refl s
  | localAccessTimerExpiry =>
    simp only [exec, execLocalAccessTimerExpiry]
    split <;> rw [answers_next]
    · exact State.endFailed_keepsDrain _ hcurrent
    · exact .refl s
  | backoffIntervalExpiry item => exact execBackoffIntervalExpiry_keepsDrain item s
  | transmitChoice => exact execTransmitChoice_keepsDrain s
  | responseSent => exact execResponseSent_keepsDrain State.ItemsInUse.response
  | mgmtReplySent => exact execMgmtReplySent_keepsDrain s
  | noticePortWrite address enables lanes parity =>
    exact execNoticePortWrite_keepsDrain address enables lanes parity s
  | noticePortRead address => exact execNoticePortRead_keepsDrain address s
  | upstreamTransmissionEnds => exact execUpstreamTransmissionEnds_keepsDrain s

theorem step_keepsDrain {s t : State} (h : step s = .next t) : State.KeepsDrain s.ItemsInUse s t := by
  unfold step at h
  split at h
  · cases h
    exact .refl s
  next c rest _ =>
    obtain ⟨hheld, hcounts⟩ := exec_keepsDrain c (s.withPending rest) t h
    exact ⟨hheld, fun ⟨horder, hcurrent, hresponse⟩ => hcounts ⟨horder, hcurrent, hresponse⟩⟩

/-- Settles O5: the law is that of the multiset of the items in flight, which every step keeps. -/
theorem drainStaysExact : Obligations.DrainStaysExact := fun s t hsound hexact h => by
  have hcounts := (step_keepsDrain h).2 hsound.itemsInUse
  simp only [add_zero, ← State.drainExact_iff] at hcounts
  exact hcounts hexact

/-- Settles O6. -/
theorem heldCommitStaysDraining : Obligations.HeldCommitStaysDraining := fun _ _ hs h => (step_keepsDrain h).1 hs

end Sys2Proof.Machine
end

section
/-! PROOF. The Posted Write Queue: how an accepted posted write enters it (R39), what its retirement tells the other
blocks (R48, R63, R169), and how a backoff interval ends (R45, R69). -/

namespace Sys2Proof.Machine

/-! ## The append (R39) -/

/-- R39: an accepted posted write is appended where there is a place. -/
theorem State.takePosted_accepted {s : State} {q : DataRequest} {p : Placement} {o : WindowOrder}
    (hd : decode s.mu.port s.wd.active q = .accepted p o) (hfree : s.pwq.length < 32) :
    s.takePosted q = .next { s with pwq := s.pwq ++ [newRecord q p s.wd.generation] } := by
  simp only [State.takePosted, hd]
  exact if_pos hfree

/-- Settles O19: the packet is charged, handed to the queue and appended. -/
theorem postedWriteAppended : Obligations.PostedWriteAppended := by
  intro words p s h data pl o hup hp hcode hgrant hform hdecode hfree
  have hkind : DownstreamKind.ofCode h.kindCode = some (.data .writePosted) := by rw [hcode]; rfl
  have hcharged : exec (.downstreamPacket words p) s =
      (s.consume .posted).takePosted (h.dataRequest .writePosted data) := hp.exec_data p hup hkind hgrant hform
  rw [hcharged, State.takePosted_accepted (s := s.consume .posted) hdecode hfree]
  rfl

/-! ## The three notices of a retirement (R48) -/

/-- R169: a posted credit. -/
theorem State.release_posted (s : State) : s.release .posted = { s with link := if s.link.state = .up then
    { s.link with posted := ⟨s.link.posted.outstanding, s.link.posted.awaiting + 1⟩ } else s.link } := by
  cases h : s.link.state with
  | up => rw [State.release_up _ h]; rfl
  | down => rw [State.release_down _ h]; rfl

theorem State.retirement_entries (g : BitVec 8) (s : State) :
    (s.retirement g).rt.entries = mapAll TrackerEntry.oneRetired s.rt.entries := by
  simp only [State.retirement, State.countOut_frame, State.orderingNotice, State.release_frame]

/-- Settles O58: the credit and the counting out are the two other notices, and each entry is told by `oneRetired`. -/
theorem retirementSendsNotices : Obligations.RetirementSendsNotices := by
  intro s g told
  refine ⟨?_, fun i => State.retirement_entry g i s⟩
  simp only [told, State.retirement_entries]
  rw [State.retirement, State.release_posted]
  rfl

/-! ## The end of a backoff interval (R45, R69) -/

theorem State.headExpires_backoff {s : State} {r : WriteRecord} {rest : List WriteRecord} (hq : s.pwq = r :: rest)
    (hr : r.state = .backoff) : s.headExpires =
      { s with pwq := { r with state := .queued } :: rest, lbe := { s.lbe with headTimer := none } } := by
  simp only [State.headExpires, State.setHead, hq, hr, if_true]

theorem State.entryExpires_backoff {s : State} {i : Fin 24} (h : s.rt.entries[i].state = .backoff) :
    s.entryExpires i = { s with
      rt := { s.rt with entries := s.rt.entries.set i { s.rt.entries[i] with state := .ready } }
      lbe := { s.lbe with entryTimers := s.lbe.entryTimers.set i none } } := by
  simp only [State.entryExpires, State.updateEntry, RequestTracker.setEntry, h, if_true]

/-- Settles O47: a timer that runs expires, and the item in BACKOFF is offered again. -/
theorem backoffExpiryOffersAgain : Obligations.BackoffExpiryOffersAgain := by
  intro s
  refine ⟨fun r rest htimer hq hr => ?_, fun i htimer hentry => ?_⟩
  · obtain ⟨interval, hruns⟩ := Option.isSome_iff_exists.mp htimer
    have hexec : exec (.backoffIntervalExpiry .head) s = .next s.headExpires := by
      simp only [exec, execBackoffIntervalExpiry, hruns]
    rw [hexec, State.headExpires_backoff hq hr]
  · obtain ⟨interval, hruns⟩ := Option.isSome_iff_exists.mp htimer
    have hexec : exec (.backoffIntervalExpiry (.entry i)) s = .next (s.entryExpires i) := by
      simp only [exec, execBackoffIntervalExpiry, hruns]
    rw [hexec, State.entryExpires_backoff hentry]

end Sys2Proof.Machine
end

section
/-! PROOF. While HALTED only an ACTIVE head is queued and no entry waits (R51, R76). The entry to HALTED leaves the
ACTIVE records in the queue, and these are the head alone. So every command keeps two laws at once: that no record
behind the head is ACTIVE, and the quiet of a HALTED port. -/

namespace Sys2Proof.Machine

/-! ## The law that every command keeps -/

/-- R37: no record behind the head is ACTIVE. R51, R76: a HALTED port is quiet. -/
structure State.HaltsQuietly (s : State) : Prop where
  tailInactive : ∀ r ∈ s.pwq.tail, r.state ≠ .active
  quiet : s.HaltedQuiet

theorem State.QueueSound.tailInactive {s : State} (h : s.QueueSound) : ∀ r ∈ s.pwq.tail, r.state ≠ .active := by
  obtain ⟨_, _, huntouched⟩ := h
  intro r hr hactive
  obtain ⟨hqueued, _⟩ := huntouched r hr
  rw [hqueued] at hactive
  cases hactive

/-- With the port not HALTED nothing is asked of the items. -/
theorem State.HaltsQuietly.of_not_halted {s : State} (htail : ∀ r ∈ s.pwq.tail, r.state ≠ .active)
    (hport : s.mu.port ≠ .halted) : s.HaltsQuietly := ⟨htail, fun h => absurd h hport⟩

/-- Records may leave the queue, and entries may cease to wait. -/
theorem State.HaltsQuietly.of_fewer {s t : State} (h : s.HaltsQuietly) (hqueue : t.pwq.Sublist s.pwq)
    (hport : t.mu.port = .halted → s.mu.port = .halted)
    (hwaits : s.mu.port = .halted → ∀ i : Fin 24, t.rt.entries[i].waits = true → s.rt.entries[i].waits = true) :
    t.HaltsQuietly := by
  refine ⟨fun r hr => h.tailInactive r (hqueue.tail.subset hr), fun hhalted => ?_⟩
  obtain ⟨hcount, hactive, hnone⟩ := h.quiet (hport hhalted)
  refine ⟨hqueue.length_le.trans hcount, fun r hr => hactive r (hqueue.subset hr), fun i => ?_⟩
  refine eq_false_of_ne_true fun hi => ?_
  exact ne_true_of_eq_false (hnone i) (hwaits (hport hhalted) i hi)

/-- The law reads the queue, the tracker and the port state alone. -/
theorem State.HaltsQuietly.of_frame {s t : State} (h : s.HaltsQuietly)
    (hf : t.pwq = s.pwq ∧ t.rt = s.rt ∧ t.mu.port = s.mu.port) : t.HaltsQuietly := by
  obtain ⟨hqueue, htracker, hport⟩ := hf
  exact h.of_fewer (hqueue ▸ List.Sublist.refl _) (fun ht => hport ▸ ht) fun _ i hi => htracker ▸ hi

/-- One entry is replaced. -/
theorem State.HaltsQuietly.of_entry {s t : State} {i : Fin 24} {e : TrackerEntry} (h : s.HaltsQuietly)
    (hf : t.pwq = s.pwq ∧ t.mu.port = s.mu.port) (hentry : t.rt.entries = s.rt.entries.set i e)
    (hwaits : s.mu.port = .halted → e.waits = true → s.rt.entries[i].waits = true) : t.HaltsQuietly := by
  obtain ⟨hqueue, hport⟩ := hf
  refine h.of_fewer (hqueue ▸ List.Sublist.refl _) (fun ht => hport ▸ ht) fun hhalted j hj => ?_
  rw [hentry, set_getElem] at hj
  split at hj
  next hji => rw [hji]; exact hwaits hhalted hj
  next => exact hj

/-- R76: an entry in BACKOFF waits. -/
theorem TrackerEntry.waits_of_backoff {e : TrackerEntry} (h : e.state = .backoff) : e.waits = true := by
  rw [waits, h]
  rfl

/-! ## Retirement, and entries that end (R48, R56, R67) -/

theorem State.HaltsQuietly.placeReply {s : State} (h : s.HaltsQuietly) (k : Fin 2) (m : MgmtReply) :
    (s.placeReply k m).HaltsQuietly := h.of_frame (by simp)

theorem State.HaltsQuietly.release {s : State} (h : s.HaltsQuietly) (p : Pool) : (s.release p).HaltsQuietly :=
  h.of_frame (by simp)

theorem State.HaltsQuietly.consume {s : State} (h : s.HaltsQuietly) (p : Pool) : (s.consume p).HaltsQuietly :=
  h.of_frame (by simp)

/-- R48: the record that retires has left the queue, and entries that waited may cease to. -/
theorem State.HaltsQuietly.retirement {s : State} (h : s.HaltsQuietly) (g : BitVec 8) :
    (s.retirement g).HaltsQuietly := by
  refine h.of_fewer (by simp) (by simp) fun _ i hi => ?_
  rwa [State.retirement_entry, TrackerEntry.oneRetired_waits.1] at hi

theorem State.HaltsQuietly.discardRecord {s : State} (h : s.HaltsQuietly) (r : WriteRecord) :
    (s.discardRecord r).HaltsQuietly := (h.retirement r.generation).of_frame (by simp [State.discardRecord])

/-- R46, R47: the head leaves the queue. -/
theorem State.HaltsQuietly.dropHead {s : State} (h : s.HaltsQuietly) {r : WriteRecord} {rest : List WriteRecord}
    (hq : s.pwq = r :: rest) : State.HaltsQuietly { s with pwq := rest } :=
  h.of_fewer (hq ▸ List.sublist_cons_self r rest) (fun hp => hp) fun _ _ hi => hi

theorem State.HaltsQuietly.retireHead {s : State} (h : s.HaltsQuietly) : s.retireHead.HaltsQuietly := by
  unfold State.retireHead
  split
  · exact h
  next hq => exact (h.dropHead hq).retirement _

/-- R67, R77. -/
theorem State.HaltsQuietly.completeEntry {s : State} (h : s.HaltsQuietly) (i : Fin 24) (st : Status) :
    (s.completeEntry i st).HaltsQuietly := h.of_entry (by simp) rfl fun _ hwaits => by cases hwaits

/-- R71, R79. -/
theorem State.HaltsQuietly.freeEntry {s : State} (h : s.HaltsQuietly) (i : Fin 24) : (s.freeEntry i).HaltsQuietly := by
  rw [State.freeEntry_eq]
  refine State.HaltsQuietly.of_entry h (by simp) (by simp only [State.countOut_frame]; rfl) fun _ hwaits => ?_
  cases hwaits

/-! ## The entry to HALTED and error reports (R52, R76, R152) -/

/-- R52: of the records that are ACTIVE only the head is one. -/
theorem filter_active_tail {l : List WriteRecord} (h : ∀ r ∈ l.tail, r.state ≠ .active) :
    (l.filter fun r => r.state == .active).tail = [] := by
  cases l with
  | nil => rfl
  | cons r rest =>
    have hrest : rest.filter (fun r => r.state == .active) = [] :=
      List.filter_eq_nil_iff.mpr fun x hx hactive => h x hx (eq_of_beq hactive)
    rw [List.filter_cons, hrest]
    split <;> rfl

theorem State.enterHalted_pwq (s : State) : s.enterHalted.pwq = s.pwq.filter fun r => r.state == .active := by
  simp only [State.enterHalted, State.completeWaiting_frame, State.discardWaiting_pwq]

/-- R76: every entry that waited is COMPLETE. -/
theorem State.enterHalted_waits (i : Fin 24) (s : State) : s.enterHalted.rt.entries[i].waits = false := by
  simp only [State.enterHalted, State.completeWaiting, mapAll_getElem]
  split
  · rfl
  next h => exact eq_false_of_ne_true h

/-- R51, R52, R76: the entry to HALTED leaves the port quiet. -/
theorem State.HaltsQuietly.enterHalted {s : State} (h : s.HaltsQuietly) : s.enterHalted.HaltsQuietly := by
  have hnoTail : s.enterHalted.pwq.tail = [] := by
    rw [State.enterHalted_pwq]
    exact filter_active_tail h.tailInactive
  refine ⟨fun r hr => ?_, fun _ => ⟨?_, fun r hr => ?_, fun i => s.enterHalted_waits i⟩⟩
  · rw [hnoTail] at hr
    cases hr
  · have hlength := congrArg List.length hnoTail
    rw [List.length_tail, List.length_nil] at hlength
    exact Nat.le_of_sub_eq_zero hlength
  · rw [State.enterHalted_pwq] at hr
    exact eq_of_beq (List.mem_filter.mp hr).2

theorem State.HaltsQuietly.fatalRecorded {s : State} (h : s.HaltsQuietly) : s.fatalRecorded.HaltsQuietly := by
  unfold State.fatalRecorded
  split
  · exact h.enterHalted
  · exact h

/-- R119, R120: of what follows a recording only the halt is seen. -/
theorem State.HaltsQuietly.afterRecording {s : State} (h : s.HaltsQuietly) (v : Severity) (k : ErrorKind)
    (o : CaptureOutcome) : (s.afterRecording v k o).HaltsQuietly := by
  have hnoticed : (if s.ecu.notifies v then s.requestNotice v k o else s).HaltsQuietly := by
    split
    · exact h.of_frame (by simp)
    · exact h
  unfold State.afterRecording
  dsimp only
  split
  · exact hnoticed.fatalRecorded
  · exact hnoticed

theorem State.HaltsQuietly.report {s : State} (h : s.HaltsQuietly) (r : Report) : (s.report r).HaltsQuietly := by
  unfold State.report
  split
  · exact h
  · refine State.HaltsQuietly.afterRecording ?_ _ _ _
    exact h.of_frame ⟨rfl, rfl, rfl⟩

/-! ## The end of a session (R78, R154, R159) -/

/-- R78: an entry at a session end is FREE or an ACTIVE orphan. -/
theorem TrackerEntry.sessionEnded_waits (e : TrackerEntry) : e.sessionEnded.waits = false := by
  cases h : e.state <;> simp [sessionEnded, freedAtSessionEnd, waits, freed, h]

/-- R154: a session end leaves a HALTED port HALTED, and no other port becomes HALTED. -/
theorem ManagementUnit.sessionEnded_halted {m : ManagementUnit} (h : m.sessionEnded.port = .halted) :
    m.port = .halted := by
  simp only [sessionEnded] at h
  split at h
  · cases h
  · exact h

theorem State.HaltsQuietly.endSession {s : State} (h : s.HaltsQuietly) : s.endSession.HaltsQuietly := by
  unfold State.endSession
  split
  · exact h
  · refine h.of_fewer ?_ (fun hport => ?_) fun _ i hi => ?_
    · rw [State.foldl_countOut (fun s => s.pwq) (by simp)]
    · rw [State.foldl_countOut (fun s => s.mu.port) (by simp)] at hport
      exact ManagementUnit.sessionEnded_halted hport
    · rw [State.foldl_countOut (fun s => s.rt.entries[i]) (by simp)] at hi
      simp only [mapAll_getElem, TrackerEntry.sessionEnded_waits] at hi
      cases hi

/-! ## Resets (R157, R158) -/

/-- A state whose queue and tracker are those of a reset holds no item. -/
theorem State.HaltsQuietly.of_reset {s : State} (hp : s.pwq = State.reset.pwq) (hr : s.rt = State.reset.rt) :
    s.HaltsQuietly := by
  refine ⟨fun r h => ?_, fun _ => ⟨?_, fun r h => ?_, fun i => ?_⟩⟩
  · rw [hp] at h; cases h
  · rw [State.occupancy, hp]; exact Nat.zero_le 1
  · rw [hp] at h; cases h
  · rw [hr, State.reset_entry]; rfl

theorem State.HaltsQuietly.partReset (s : State) : s.partReset.HaltsQuietly := .of_reset rfl rfl

/-! ## Received packets -/

/-- R10: while HALTED the decode of every request ends with HALTED. -/
theorem decode_halted {port : PortState} (h : port = .halted) (bank : Bank) (q : DataRequest) :
    decode port bank q = .halted := by rw [h]; rfl

theorem State.HaltsQuietly.reportRefusal {s : State} (h : s.HaltsQuietly) (posted : Bool) (q : DataRequest)
    (g : BitVec 8) (o : DecodeOutcome) : (s.reportRefusal posted q g o).HaltsQuietly := by
  unfold State.reportRefusal
  split
  · exact h.report _
  · exact h

theorem State.HaltsQuietly.discardWrite {s : State} (h : s.HaltsQuietly) (q : DataRequest) (o : DecodeOutcome) :
    (s.discardWrite q o).HaltsQuietly := by
  cases o with
  | halted => exact h.of_frame (by simp [State.discardWrite])
  | accepted p o => exact h
  | _ =>
    simp only [State.discardWrite]
    exact (h.release .posted).reportRefusal _ _ _ _

/-- R39: a record that is not ACTIVE joins the tail. -/
theorem tail_append_inactive {l : List WriteRecord} (h : ∀ r ∈ l.tail, r.state ≠ .active) {r : WriteRecord}
    (hr : r.state ≠ .active) : ∀ x ∈ (l ++ [r]).tail, x.state ≠ .active := by
  cases l with
  | nil => nofun
  | cons a l =>
    intro x hx
    rcases List.mem_append.mp hx with hx | hx
    · exact h x hx
    · rw [List.mem_singleton.mp hx]
      exact hr

/-- R39: a posted write is appended only while the port is OPEN. -/
theorem State.HaltsQuietly.takePosted {s : State} (h : s.HaltsQuietly) (q : DataRequest) :
    Answers (s.takePosted q) State.HaltsQuietly := by
  cases hd : decode s.mu.port s.wd.active q with
  | accepted p o =>
    have hport : s.mu.port ≠ .halted := fun hp => by
      rw [decode_halted hp] at hd
      cases hd
    simp only [State.takePosted, hd, State.appendRecord]
    split
    · rw [answers_next]
      exact .of_not_halted (tail_append_inactive h.tailInactive nofun) hport
    · exact answers_fault _ _
  | _ =>
    rw [State.takePosted_refused hd rfl, answers_next]
    exact h.discardWrite _ _

/-- R61: an entry allocated while HALTED is COMPLETE at once. -/
theorem State.HaltsQuietly.allocate {s : State} (h : s.HaltsQuietly) (i : Fin 24) (q : DataRequest) :
    (s.allocate i q (decode s.mu.port s.wd.active q)).HaltsQuietly := by
  refine h.of_entry (by simp) rfl fun hport hwaits => ?_
  rw [decode_halted hport] at hwaits
  cases hwaits

theorem State.HaltsQuietly.takeNonPosted {s : State} (h : s.HaltsQuietly) (q : DataRequest) (p : Fin 24) :
    Answers (s.takeNonPosted q p) State.HaltsQuietly := by
  unfold State.takeNonPosted
  split
  · exact (answers_next _ _).mpr ((h.release .nonPosted).report _)
  · split
    · exact answers_fault _ _
    · exact (answers_next _ _).mpr ((h.allocate _ q).reportRefusal _ _ _ _)

theorem State.HaltsQuietly.takeManagement {s : State} (h : s.HaltsQuietly) (r : MgmtRequest) :
    Answers (s.takeManagement r) State.HaltsQuietly := by
  have hfill (k : Fin 2) : (s.fillSlot k r).HaltsQuietly := h.of_frame ⟨rfl, rfl, rfl⟩
  unfold State.takeManagement
  split
  · split
    · exact answers_fault _ _
    · exact (answers_next _ _).mpr (hfill 1)
  · exact (answers_next _ _).mpr (hfill 0)

theorem State.HaltsQuietly.route {s : State} (hs : s.HaltsQuietly) (k : DownstreamKind) (h : Header)
    (data : List Word) (p : Fin 24) : Answers (s.route k h data p) State.HaltsQuietly := by
  match k with
  | .data .writePosted => exact hs.takePosted _
  | .data .writeConfirmed => exact hs.takeNonPosted _ _
  | .data .read => exact hs.takeNonPosted _ _
  | .mgmt _ => exact hs.takeManagement _

theorem State.HaltsQuietly.chargePacket {s : State} (hs : s.HaltsQuietly) (k : DownstreamKind) (h : Header)
    (data : List Word) (p : Fin 24) : Answers (s.chargePacket k h data p) State.HaltsQuietly := by
  unfold State.chargePacket
  split
  · exact (answers_next _ _).mpr (hs.report _)
  · split
    · exact (hs.consume _).route _ _ _ _
    · exact (answers_next _ _).mpr (((hs.consume _).release _).report _)

theorem State.HaltsQuietly.execDownstreamPacket {s : State} (h : s.HaltsQuietly) (words : List Word) (p : Fin 24) :
    Answers (execDownstreamPacket words p s) State.HaltsQuietly := by
  unfold Machine.execDownstreamPacket State.takePacket
  split
  · exact (answers_next _ _).mpr h
  · split
    · exact (answers_next _ _).mpr (h.report _).endSession
    · split
      · exact (answers_next _ _).mpr (h.report _)
      · exact h.chargePacket _ _ _ _

/-! ## The local bus -/

/-- A change of the head after which an ACTIVE head is still ACTIVE. -/
theorem State.HaltsQuietly.setHead {s : State} (h : s.HaltsQuietly) {f : WriteRecord → WriteRecord}
    (hf : ∀ r, r.state = .active → (f r).state = .active) : (s.setHead f).HaltsQuietly := by
  unfold State.setHead
  split
  · exact h
  next r rest hq =>
    have htail := h.tailInactive
    rw [hq] at htail
    refine ⟨htail, fun hport => ?_⟩
    obtain ⟨hcount, hactive, hnone⟩ := h.quiet hport
    rw [State.occupancy, hq] at hcount
    rw [hq] at hactive
    obtain ⟨hhead, hrest⟩ := List.forall_mem_cons.mp hactive
    exact ⟨hcount, List.forall_mem_cons.mpr ⟨hf r hhead, hrest⟩, hnone⟩

theorem State.HaltsQuietly.updateEntry {s : State} (h : s.HaltsQuietly) (i : Fin 24) {f : TrackerEntry → TrackerEntry}
    (hf : ∀ e, (f e).waits = true → e.waits = true) : (s.updateEntry i f).HaltsQuietly :=
  h.of_entry (by simp) rfl fun _ => hf _

theorem State.HaltsQuietly.grantHead {s : State} (h : s.HaltsQuietly) : s.grantHead.HaltsQuietly := by
  unfold State.grantHead
  refine State.HaltsQuietly.setHead ?_ fun _ _ => rfl
  exact h.of_frame (by simp)

theorem State.HaltsQuietly.grantEntry {s : State} (h : s.HaltsQuietly) (i : Fin 24) :
    (s.grantEntry i).HaltsQuietly := by
  unfold State.grantEntry
  refine State.HaltsQuietly.updateEntry ?_ i fun _ hwaits => by cases hwaits
  exact h.of_frame (by simp)

theorem State.HaltsQuietly.handBack {s : State} (h : s.HaltsQuietly) (st : Status) :
    (s.handBack st).HaltsQuietly := by
  unfold State.handBack State.finishEntry
  split
  · exact h
  · exact h.retireHead
  · split
    · exact h.freeEntry _
    · exact h.completeEntry _ _

theorem State.HaltsQuietly.releaseBus {s : State} (h : s.HaltsQuietly) : s.releaseBus.HaltsQuietly :=
  h.of_frame ⟨rfl, rfl, rfl⟩

theorem State.HaltsQuietly.clearCurrent {s : State} (h : s.HaltsQuietly) : s.clearCurrent.HaltsQuietly :=
  h.of_frame ⟨rfl, rfl, rfl⟩

theorem State.HaltsQuietly.endOk {s : State} (h : s.HaltsQuietly) : s.endOk.HaltsQuietly :=
  (h.releaseBus.handBack .ok).clearCurrent

theorem State.HaltsQuietly.endFailed {s : State} (h : s.HaltsQuietly) (f : Failure) :
    (s.endFailed f).HaltsQuietly := by
  have hended := (h.releaseBus.handBack f.status).clearCurrent
  unfold State.endFailed State.reportOption
  split
  · exact hended.report _
  · exact hended

/-- R66: an acknowledged word leaves an entry's state as it was. -/
theorem TrackerEntry.acknowledged_waits (e : TrackerEntry) (w : Word) : (e.acknowledged w).waits = e.waits := by
  unfold TrackerEntry.acknowledged
  split <;> rfl

theorem State.HaltsQuietly.acknowledge {s : State} (h : s.HaltsQuietly) (it : Item) (lanes : Word) (parity : Nibble) :
    (s.acknowledge it lanes parity).HaltsQuietly := by
  unfold State.acknowledge
  split
  · exact h
  · exact h.setHead fun _ hactive => hactive
  next i _ =>
    have hchecked : (s.checkParity i it lanes parity).HaltsQuietly := h.of_frame (by simp)
    exact hchecked.updateEntry i fun e hwaits => by rwa [e.acknowledged_waits] at hwaits

theorem State.HaltsQuietly.takeAck {s : State} (h : s.HaltsQuietly) (it : Item) (lanes : Word) (parity : Nibble) :
    (s.takeAck it lanes parity).HaltsQuietly := by
  have hack := h.acknowledge it lanes parity
  unfold State.takeAck State.endLastWord
  split
  · exact hack.of_frame (by simp)
  · split
    · exact hack.endFailed _
    · exact hack.endOk

/-- R44, R53: while HALTED the head is discarded, and else it stays. -/
theorem State.HaltsQuietly.retryHead {s : State} (h : s.HaltsQuietly) : s.retryHead.HaltsQuietly := by
  unfold State.retryHead
  split
  · exact h
  next r rest hq =>
    have htail := h.tailInactive
    rw [hq] at htail
    split
    · exact (h.dropHead hq).discardRecord r
    next hport => exact .of_not_halted htail (by simp [hport])
    next hport => exact .of_not_halted htail (by simp [hport])

/-- R68: outside HALTED an entry may wait. -/
theorem State.HaltsQuietly.backoffEntry {s : State} (h : s.HaltsQuietly) (i : Fin 24) (hport : s.mu.port ≠ .halted) :
    (s.backoffEntry i).HaltsQuietly := .of_not_halted h.tailInactive hport

/-- R68, R77, R79: while HALTED the entry completes. -/
theorem State.HaltsQuietly.retryEntry {s : State} (h : s.HaltsQuietly) (i : Fin 24) :
    (s.retryEntry i).HaltsQuietly := by
  unfold State.retryEntry
  split
  · exact h.freeEntry i
  · split
    · exact h.completeEntry i _
    next hport => exact h.backoffEntry i (by simp [hport])
    next hport => exact h.backoffEntry i (by simp [hport])

theorem State.HaltsQuietly.takeRetry {s : State} (h : s.HaltsQuietly) (it : Item) : (s.takeRetry it).HaltsQuietly := by
  unfold State.takeRetry State.retryWithin
  split
  · exact h.endFailed _
  · refine State.HaltsQuietly.clearCurrent ?_
    split
    · exact h.releaseBus
    · exact h.releaseBus.retryHead
    · exact h.releaseBus.retryEntry _

/-- R45: a head that is ACTIVE is not in BACKOFF. -/
theorem State.HaltsQuietly.headExpires {s : State} (h : s.HaltsQuietly) : s.headExpires.HaltsQuietly := by
  unfold State.headExpires
  refine State.HaltsQuietly.setHead ?_ fun r hactive => ?_
  · exact h.of_frame ⟨rfl, rfl, rfl⟩
  · rw [if_neg (by rw [hactive]; decide)]
    exact hactive

/-- R69: an entry that is READY after its interval has waited before. -/
theorem State.HaltsQuietly.entryExpires {s : State} (h : s.HaltsQuietly) (i : Fin 24) :
    (s.entryExpires i).HaltsQuietly := by
  unfold State.entryExpires
  refine State.HaltsQuietly.updateEntry ?_ i fun e hwaits => ?_
  · exact h.of_frame ⟨rfl, rfl, rfl⟩
  · split at hwaits
    next hbackoff => exact TrackerEntry.waits_of_backoff hbackoff
    next => exact hwaits

/-! ## Management requests -/

/-- R141, R144: a management command keeps the law where its own effect does. -/
theorem State.HaltsQuietly.executeIf {s : State} (h : s.HaltsQuietly) {sel : MgmtRequest → Bool}
    {body : Fin 2 → MgmtRequest → State → State} (hbody : ∀ k r, (body k r s).HaltsQuietly) :
    Answers (.next (s.executeIf sel body)) State.HaltsQuietly :=
  (answers_next _ _).mpr (State.executeIf_induct h (fun k r => (h.report (deniedReport r)).placeReply k _) hbody)

/-- R150, R151: OPEN and CLOSE lead to a port that is not HALTED. -/
theorem State.HaltsQuietly.setPort {s : State} (h : s.HaltsQuietly) {p : PortState} (hp : p ≠ .halted) :
    (s.setPort p).HaltsQuietly := .of_not_halted h.tailInactive hp

theorem State.HaltsQuietly.performOpen {s : State} (h : s.HaltsQuietly) (k : Fin 2) (r : MgmtRequest) :
    (s.performOpen k r).HaltsQuietly := by
  have hopened := (h.setPort (p := .opened) (by decide)).placeReply k (doneReply [])
  unfold State.performOpen
  split
  · exact hopened
  · exact h.placeReply k _
  · split
    · exact h.placeReply k _
    · exact hopened

theorem State.HaltsQuietly.performClose {s : State} (h : s.HaltsQuietly) (k : Fin 2) (r : MgmtRequest) :
    (s.performClose k r).HaltsQuietly := by
  unfold State.performClose
  split
  · exact (h.setPort (p := .closed) (by decide)).placeReply k _
  all_goals exact h.placeReply k _

/-- Table 11-8: object 001H, which shows the port state, is read-only, so no write changes it. -/
theorem State.writeObject_port (o : ObjectId) (w : Word) (s : State) : (s.writeObject o w).mu.port = s.mu.port := by
  cases o <;> rfl

theorem State.HaltsQuietly.writeObjects {s : State} (h : s.HaltsQuietly) (ws : List (ObjectId × Word)) :
    (s.writeObjects ws).HaltsQuietly := by
  unfold State.writeObjects
  induction ws generalizing s with
  | nil => exact h
  | cons ow ws ih =>
    refine ih ?_
    exact h.of_frame (by simp [State.writeObject_port])

/-- R153: the halt that a write causes comes after the writes. -/
theorem State.HaltsQuietly.performWrite {s : State} (h : s.HaltsQuietly) (k : Fin 2) (r : MgmtRequest) :
    (s.performWrite k r).HaltsQuietly := by
  unfold State.performWrite
  split
  · exact h.placeReply k _
  next ws _ =>
    refine State.HaltsQuietly.placeReply ?_ k _
    unfold State.haltIfEnabled
    split
    · exact (h.writeObjects ws).enterHalted
    · exact h.writeObjects ws

theorem State.HaltsQuietly.performCommit {s : State} (h : s.HaltsQuietly) (k : Fin 2) (r : MgmtRequest) :
    (s.performCommit k r).HaltsQuietly := by
  have hswapped : s.swapBanks.HaltsQuietly := h.of_frame ⟨rfl, rfl, rfl⟩
  unfold State.performCommit
  split
  · exact h.placeReply k _
  · split
    · exact h.placeReply k _
    · split
      · exact hswapped.placeReply k _
      · exact hswapped.of_frame ⟨rfl, rfl, rfl⟩

theorem State.HaltsQuietly.performDiscardStaging {s : State} (h : s.HaltsQuietly) (k : Fin 2) (r : MgmtRequest) :
    (s.performDiscardStaging k r).HaltsQuietly := by
  refine State.HaltsQuietly.placeReply ?_ k _
  exact h.of_frame ⟨rfl, rfl, rfl⟩

theorem State.HaltsQuietly.performClearErrors {s : State} (h : s.HaltsQuietly) (k : Fin 2) (r : MgmtRequest) :
    (s.performClearErrors k r).HaltsQuietly := by
  unfold State.performClearErrors
  split
  · exact h.placeReply k _
  · split
    · refine State.HaltsQuietly.placeReply ?_ k _
      exact h.of_frame ⟨rfl, rfl, rfl⟩
    · exact h.placeReply k _

theorem State.HaltsQuietly.performResetPart {s : State} (h : s.HaltsQuietly) (k : Fin 2) (r : MgmtRequest) :
    (s.performResetPart k r).HaltsQuietly := by
  unfold State.performResetPart
  split
  · exact .partReset s
  all_goals exact h.of_frame ⟨rfl, rfl, rfl⟩

/-! ## Every command -/

theorem execArbitrationDecision_haltsQuietly {s : State} (h : s.HaltsQuietly) :
    Answers (execArbitrationDecision s) State.HaltsQuietly := by
  unfold execArbitrationDecision
  split <;> rw [answers_next]
  · exact h.grantHead
  · exact h.grantEntry _
  all_goals exact h

theorem execBackoffIntervalExpiry_haltsQuietly {s : State} (h : s.HaltsQuietly) (item : BackoffItem) :
    Answers (execBackoffIntervalExpiry item s) State.HaltsQuietly := by
  cases item with
  | head =>
    simp only [execBackoffIntervalExpiry]
    split <;> rw [answers_next]
    · exact h.headExpires
    · exact h
  | entry i =>
    simp only [execBackoffIntervalExpiry]
    split <;> rw [answers_next]
    · exact h.entryExpires i
    · exact h

theorem execAckAnswer_haltsQuietly {s : State} (h : s.HaltsQuietly) (lanes : Word) (parity : Nibble) :
    Answers (execAckAnswer lanes parity s) State.HaltsQuietly := by
  unfold execAckAnswer
  split <;> rw [answers_next]
  · exact h.takeAck _ _ _
  · exact h

theorem execRetryAnswer_haltsQuietly {s : State} (h : s.HaltsQuietly) :
    Answers (execRetryAnswer s) State.HaltsQuietly := by
  unfold execRetryAnswer
  split <;> rw [answers_next]
  · exact h.takeRetry _
  · exact h

theorem execErrorAnswer_haltsQuietly {s : State} (h : s.HaltsQuietly) :
    Answers (execErrorAnswer s) State.HaltsQuietly := by
  unfold execErrorAnswer
  split <;> rw [answers_next]
  · exact h.endFailed _
  · exact h

theorem execLocalAccessTimerExpiry_haltsQuietly {s : State} (h : s.HaltsQuietly) :
    Answers (execLocalAccessTimerExpiry s) State.HaltsQuietly := by
  unfold execLocalAccessTimerExpiry
  split <;> rw [answers_next]
  · exact h.endFailed _
  · exact h

theorem execResetPartTakesEffect_haltsQuietly {s : State} (h : s.HaltsQuietly) :
    Answers (execResetPartTakesEffect s) State.HaltsQuietly := by
  unfold execResetPartTakesEffect
  split <;> rw [answers_next]
  · exact .partReset s
  all_goals exact h

theorem execLinkUp_haltsQuietly {s : State} (h : s.HaltsQuietly) : Answers (execLinkUp s) State.HaltsQuietly := by
  unfold execLinkUp
  split <;> exact (answers_next _ _).mpr (h.of_frame (by simp))

theorem execBusGrant_haltsQuietly {s : State} (h : s.HaltsQuietly) : Answers (execBusGrant s) State.HaltsQuietly := by
  unfold execBusGrant State.beginOwning
  split <;> exact (answers_next _ _).mpr (h.of_frame (by simp))

/-- R171: whichever packet is chosen, the items stay where they are. -/
theorem execTransmitChoice_haltsQuietly {s : State} (h : s.HaltsQuietly) :
    Answers (execTransmitChoice s) State.HaltsQuietly := by
  unfold execTransmitChoice State.chooseUpstream State.chooseData
  (repeat' split) <;> exact (answers_next _ _).mpr (h.of_frame (by simp))

theorem execResponseSent_haltsQuietly {s : State} (h : s.HaltsQuietly) :
    Answers (execResponseSent s) State.HaltsQuietly := by
  unfold execResponseSent
  split <;> rw [answers_next]
  next i _ =>
    refine State.HaltsQuietly.freeEntry ?_ i
    exact h.of_frame (by simp)
  all_goals exact h

theorem execMgmtReplySent_haltsQuietly {s : State} (h : s.HaltsQuietly) :
    Answers (execMgmtReplySent s) State.HaltsQuietly := by
  unfold execMgmtReplySent
  split <;> rw [answers_next]
  next k _ =>
    refine State.HaltsQuietly.release ?_ .management
    exact h.of_frame ⟨rfl, rfl, rfl⟩
  all_goals exact h

theorem execUpstreamTransmissionEnds_haltsQuietly {s : State} (h : s.HaltsQuietly) :
    Answers (execUpstreamTransmissionEnds s) State.HaltsQuietly := by
  unfold execUpstreamTransmissionEnds
  split <;> exact (answers_next _ _).mpr (h.of_frame (by simp))

theorem execNoticePortWrite_haltsQuietly {s : State} (h : s.HaltsQuietly) (address : Word) (enables : Nibble)
    (lanes : Word) (parity : Nibble) :
    Answers (execNoticePortWrite address enables lanes parity s) State.HaltsQuietly := by
  unfold execNoticePortWrite State.writeWordZero
  (repeat' split) <;> exact (answers_next _ _).mpr (h.of_frame (by simp))

theorem execNoticePortRead_haltsQuietly {s : State} (h : s.HaltsQuietly) (address : Word) :
    Answers (execNoticePortRead address s) State.HaltsQuietly := by
  unfold execNoticePortRead
  (repeat' split) <;> exact (answers_next _ _).mpr (h.of_frame (by simp))

/-- R37, R51, R76: each command keeps the law, by the lemma of its own effect. -/
theorem exec_haltsQuietly (c : Instr) {s : State} (h : s.HaltsQuietly) : Answers (exec c s) State.HaltsQuietly := by
  cases c with
  | powerOnReset => exact (answers_next _ _).mpr (.of_reset rfl rfl)
  | linkUp => exact execLinkUp_haltsQuietly h
  | lossOfLinkSignal => exact (answers_next _ _).mpr h.endSession
  | downstreamPacket words p => exact h.execDownstreamPacket words p
  | mgmtRead => exact h.executeIf fun k _ => h.placeReply k _
  | mgmtWrite => exact h.executeIf h.performWrite
  | haltOnFatalEnable => exact h.executeIf h.performWrite
  | openPort => exact h.executeIf h.performOpen
  | closePort => exact h.executeIf h.performClose
  | commit => exact h.executeIf h.performCommit
  | discardStaging => exact h.executeIf h.performDiscardStaging
  | clearErrors => exact h.executeIf h.performClearErrors
  | resetPart => exact h.executeIf h.performResetPart
  | unknownCommandCode => exact h.executeIf fun k _ => h.placeReply k _
  | resetPartTakesEffect => exact execResetPartTakesEffect_haltsQuietly h
  | arbitrationDecision => exact execArbitrationDecision_haltsQuietly h
  | busGrant => exact execBusGrant_haltsQuietly h
  | ackAnswer lanes parity => exact execAckAnswer_haltsQuietly h lanes parity
  | retryAnswer => exact execRetryAnswer_haltsQuietly h
  | errorAnswer => exact execErrorAnswer_haltsQuietly h
  | localAccessTimerExpiry => exact execLocalAccessTimerExpiry_haltsQuietly h
  | backoffIntervalExpiry item => exact execBackoffIntervalExpiry_haltsQuietly h item
  | transmitChoice => exact execTransmitChoice_haltsQuietly h
  | responseSent => exact execResponseSent_haltsQuietly h
  | mgmtReplySent => exact execMgmtReplySent_haltsQuietly h
  | noticePortWrite address enables lanes parity =>
    exact execNoticePortWrite_haltsQuietly h address enables lanes parity
  | noticePortRead address => exact execNoticePortRead_haltsQuietly h address
  | upstreamTransmissionEnds => exact execUpstreamTransmissionEnds_haltsQuietly h

theorem step_haltsQuietly {s t : State} (hs : s.HaltsQuietly) (h : step s = .next t) : t.HaltsQuietly := by
  unfold step at h
  split at h
  · cases h
    exact hs
  next c rest _ =>
    have hrest : (s.withPending rest).HaltsQuietly := hs.of_frame ⟨rfl, rfl, rfl⟩
    exact exec_haltsQuietly c hrest t h

/-- Settles O10: in a sound state no record behind the head is ACTIVE, so the law that every step keeps holds of it. -/
theorem haltedStaysQuiet : Obligations.HaltedStaysQuiet := fun _ _ hsound hquiet h =>
  (step_haltsQuietly ⟨hsound.queue.tailInactive, hquiet⟩ h).quiet

end Sys2Proof.Machine
end

section
/-! PROOF. The Request Tracker takes READ and WRITE_CONFIRMED requests: the tag check (R59, R60), and the entry that an
accepted request is given (R58, R61, R62). -/

namespace Sys2Proof.Machine

/-- R161, R163: a READ or WRITE_CONFIRMED with a grant is charged and goes to the Request Tracker. -/
theorem PacketReceived.exec_nonPosted {words : List Word} {h : Header} {data : List Word}
    (hp : PacketReceived words h data) (p : Fin 24) {s : State} {k : DataKind} (hup : s.link.state = .up)
    (hkind : DownstreamKind.ofCode h.kindCode = some (.data k)) (hk : k ≠ .writePosted)
    (hgrant : s.link.nonPosted.outstanding ≠ 0) (hform : formWellFormed (.data k) h data = true) :
    Machine.exec (.downstreamPacket words p) s = (s.consume .nonPosted).takeNonPosted (h.dataRequest k data) p := by
  obtain ⟨hpool, _, htake⟩ := DataKind.nonPosted_spec hk
  rw [hp.exec_data p hup hkind (by rw [hpool]; exact hgrant) hform, hpool, htake _ _ _ rfl]

/-! ## The tag check (R59, R60) -/

/-- R60: a request whose tag is in use is discarded and reported. -/
theorem State.takeNonPosted_tagInUse {s : State} {q : DataRequest} (p : Fin 24) (ht : s.tagInUse q.tag = true) :
    s.takeNonPosted q p = .next ((s.release .nonPosted).report (tagInUseReport q)) := by
  rw [State.takeNonPosted, if_pos ht]

/-- Table 4-3: the capture of a request that the tag check discards. -/
theorem tagInUseReport_dataRequest (h : Header) (k : DataKind) (data : List Word) :
    tagInUseReport (h.dataRequest k data) =
      { kind := .tagInUse, source := .fromDecode, packet := some ⟨k.code, h.cls, h.address, h.length⟩
        tag := some h.tag, generation := none, window := none, firstData := data.head? } := by
  rw [tagInUseReport, Header.dataRequest_packetFields]
  rfl

/-- Settles O23: the packet is charged, the tag check finds its tag, and its grant is released before the report. -/
theorem tagInUseDiscarded : Obligations.TagInUseDiscarded := by
  refine ⟨fun s tag => s.tagInUse_iff tag, ?_⟩
  intro words p s h data k i hup hp hkind hk hgrant hform huse horphan htag
  have hfound : (s.consume .nonPosted).tagInUse (h.dataRequest k data).tag = true :=
    (State.tagInUse_iff _ s).mpr ⟨i, huse, horphan, htag⟩
  rw [hp.exec_nonPosted p hup hkind hk hgrant hform, State.takeNonPosted_tagInUse p hfound,
    State.consume_release_up .nonPosted hup, tagInUseReport_dataRequest, DownstreamKind.ofCode_data hkind]
  rfl

/-! ## The entry of an accepted request (R61, R62) -/

/-- R62: a strict request is ORDERED behind the records present, if there are any, and any other is READY. -/
theorem allocatedEntry_accepted (q : DataRequest) (p : Placement) (o : WindowOrder) (g a : BitVec 8) (n : Nat) :
    allocatedEntry q (.accepted p o) g a n = { newEntry q g a with
      placement := some p, order := some o, writesAhead := if o = .strict then n else 0
      state := if o = .strict ∧ n ≠ 0 then .ordered else .ready } := by
  cases o with
  | strict => by_cases hn : n = 0 <;> simp [allocatedEntry, hn]
  | relaxed => rfl

/-- R58: the entry of an accepted request is the newest in allocation order, and awaits no response yet. -/
theorem State.allocate_accepted (i : Fin 24) (q : DataRequest) (p : Placement) (o : WindowOrder) (s : State) :
    s.allocate i q (.accepted p o) = { s with rt := { s.rt with
      counter := s.rt.counter + 1, order := s.rt.order ++ [i]
      entries := s.rt.entries.set i
        (allocatedEntry q (.accepted p o) s.wd.generation s.rt.counter s.occupancy) } } := by
  have hincomplete :
      (allocatedEntry q (.accepted p o) s.wd.generation s.rt.counter s.occupancy).state ≠ .complete := by
    rw [allocatedEntry_accepted]
    dsimp only
    split <;> decide
  simp only [State.allocate, if_neg hincomplete]

/-- Settles O21: the packet is charged and passes the tag check, and a FREE entry takes what R61 and R62 say. -/
theorem nonPostedAllocated : Obligations.NonPostedAllocated := by
  intro words p s h data k pl o hup hp hkind hk hgrant hform htag hfree hdecode
  obtain ⟨i, hfound, hi, hpreferred⟩ := State.freeEntryFor_some (s := s.consume .nonPosted) p hfree
  obtain ⟨_, hnonPosted, _⟩ := DataKind.nonPosted_spec hk
  have hdecode' : decode (s.consume .nonPosted).mu.port (s.consume .nonPosted).wd.active (h.dataRequest k data) =
      .accepted pl o := hdecode
  refine ⟨i, hi, hpreferred, ?_⟩
  rw [hp.exec_nonPosted p hup hkind hk hgrant hform, State.takeNonPosted_allocates htag hfound, hdecode',
    State.reportRefusal_none rfl, State.allocate_accepted, allocatedEntry_accepted, newEntry]
  simp only [Header.dataRequest, hnonPosted]
  rfl

end Sys2Proof.Machine
end

section
/-! PROOF. How a Request Tracker entry ends: its response has been sent (R71), or it is an orphan whose transaction has
ended (R79). The ends of the other transmissions stand with the first (R142, R166). -/

namespace Sys2Proof.Machine

/-! ## Transmissions (R71, R142, R166) -/

/-- Settles O49: what each end of a transmission does, by the source of the packet. -/
theorem finishedTransmissionsFreeSources : Obligations.FinishedTransmissionsFreeSources := by
  intro s
  refine ⟨rfl, fun i hup hsource => ?_, fun k hup hsource => ?_, ?_⟩
  · have hexec : exec .responseSent s = .next (s.clearTx.freeEntry i) := by
      simp only [exec, execResponseSent, hsource]
    have hup' : s.clearTx.link.state = .up := hup
    rw [hexec, State.freeEntry_eq, if_pos hup']
    rfl
  · have hexec : exec .mgmtReplySent s = .next ((s.clearTx.freeSlot k).release .management) := by
      simp only [exec, execMgmtReplySent, hsource]
    have hup' : (s.clearTx.freeSlot k).link.state = .up := hup
    rw [hexec, State.release_up .management hup']
    rfl
  · rintro (hsource | hsource) <;> simp only [exec, execUpstreamTransmissionEnds, hsource] <;> rfl

/-! ## The item of an entry (R65, R66, R89) -/

/-- R65: what an entry with a placement supplies to its transaction. -/
def TrackerEntry.itemAt (e : TrackerEntry) (p : Placement) : Item :=
  { placement := p, length := e.length, firstMask := e.firstMask, lastMask := e.lastMask, data := e.data
    direction := if e.kind = .read then .read else .write, progress := e.progress, retryCount := e.retryCount }

theorem TrackerEntry.item_placed {e : TrackerEntry} {p : Placement} (h : e.placement = some p) :
    e.item = some (e.itemAt p) := by
  cases hk : e.kind <;> simp [item, itemAt, h, hk]

/-- R89: the enables of an item's last word. -/
theorem maskAt_last {length position : Nat} (h : position + 1 = length) (first last : Nibble) :
    maskAt length first last position = if position = 0 then first else last := by
  rw [maskAt, if_pos h]

theorem TrackerEntry.enablesAt_last {e : TrackerEntry} (h : e.progress + 1 = e.length) (p : Placement) :
    (e.itemAt p).enablesAt e.progress =
      swapEnables p.laneSwap (if e.progress = 0 then e.firstMask else e.lastMask) := by
  rw [← maskAt_last h]
  rfl

theorem TrackerEntry.readWord_last {e : TrackerEntry} (h : e.progress + 1 = e.length) (p : Placement) (lanes : Word) :
    (e.itemAt p).readWord lanes =
      maskWord (if e.progress = 0 then e.firstMask else e.lastMask) (swapWord p.laneSwap lanes) := by
  rw [← maskAt_last h]
  rfl

/-- R74, R101, Table 4-7: the capture of a failed entry. -/
theorem entryReport_placed {e : TrackerEntry} {p : Placement} (h : e.placement = some p) (k : ErrorKind) :
    entryReport k e =
      { kind := k, source := .fromLocal
        packet := some ⟨if e.kind = .read then 3 else 2, e.cls, e.linkAddress, BitVec.ofNat 5 e.length⟩
        tag := some e.tag, generation := some e.generation, window := some ⟨p.index, p.localAddress, e.progress⟩
        firstData := if e.kind = .read then none else e.data.head? } := by
  rw [entryReport, TrackerEntry.item_placed h]
  cases hk : e.kind <;> rfl

/-- R99, Table 4-7: the capture of a READ that fails. -/
theorem entryReport_read {e : TrackerEntry} {p : Placement} (h : e.placement = some p) (hk : e.kind = .read)
    (k : ErrorKind) : entryReport k e =
      { kind := k, source := .fromLocal, packet := some ⟨3, e.cls, e.linkAddress, BitVec.ofNat 5 e.length⟩
        tag := some e.tag, generation := some e.generation, window := some ⟨p.index, p.localAddress, e.progress⟩
        firstData := none } := by
  rw [entryReport_placed h, if_pos hk, if_pos hk]

/-! ## An entry that becomes FREE (R71, R79) -/

/-- R56, R79: freeing an entry leaves every other entry alone. -/
theorem State.freeEntry_rt (i : Fin 24) (s : State) : (s.freeEntry i).rt = { s.rt with
    order := s.rt.order.filter (· != i), completion := s.rt.completion.filter (· != i)
    entries := s.rt.entries.set i { s.rt.entries[i] with
      state := .free, writesAhead := 0, orphan := false, status := none } } := by
  rw [State.freeEntry_eq]
  simp only [State.countOut_frame]

/-- R30, R79: the Window Decoder is told of an entry that becomes FREE. -/
theorem State.freeEntry_drain (i : Fin 24) (s : State) :
    (s.freeEntry i).wd = (s.countOut s.rt.entries[i].generation).wd ∧
      (s.freeEntry i).mu = (s.countOut s.rt.entries[i].generation).mu := by
  rw [State.freeEntry_eq]
  exact State.countOut_drain _ rfl rfl

theorem State.freeEntry_link (i : Fin 24) (s : State) : (s.freeEntry i).link = if s.link.state = .up then
    { s.link with nonPosted := ⟨s.link.nonPosted.outstanding, s.link.nonPosted.awaiting + 1⟩ } else s.link := by
  rw [State.freeEntry_eq]
  simp only [State.countOut_frame]

/-! ## The end of an entry's transaction (R93 to R101) -/

section
variable {s : State} {i : Fin 24} {e : TrackerEntry} {p : Placement}

/-- R94: the beat in progress is one of the entry's item. -/
theorem State.BeatOf.beatItem_entry (h : s.BeatOf (.entry i)) (he : s.rt.entries[i] = e)
    (hp : e.placement = some p) : s.beatItem = some (e.itemAt p) := by
  obtain ⟨_, _, hcurrent⟩ := id h
  rw [h.beatItem, State.currentItem_entry hcurrent, he, TrackerEntry.item_placed hp]

/-- R93: the last word of an entry is acknowledged, and the transaction ends. -/
theorem State.BeatOf.exec_ack_last (h : s.BeatOf (.entry i)) (he : s.rt.entries[i] = e) (hp : e.placement = some p)
    (hlast : e.progress + 1 = e.length) (lanes : Word) (parity : Nibble) :
    exec (.ackAnswer lanes parity) s = .next (s.acknowledge (e.itemAt p) lanes parity).endLastWord := by
  have hend : ¬(e.itemAt p).progress + 1 < (e.itemAt p).length := by
    simp only [TrackerEntry.itemAt]
    omega
  simp only [exec, execAckAnswer, h.beatItem_entry he hp, State.takeAck, if_neg hend]

/-- R95, R97, R98: the three commands that end a transaction with a failure. -/
theorem State.FailsWith.exec_entry {c : Instr} {f : Failure} (h : s.FailsWith c (.entry i) e.retryCount f)
    (he : s.rt.entries[i] = e) (hp : e.placement = some p) :
    exec c s = .next (s.endFailed f) ∧ s.lbe.current = some (.entry i) := by
  rcases h with ⟨rfl, rfl, hbeat⟩ | ⟨rfl, rfl, htimer, hcurrent⟩ | ⟨rfl, rfl, hbeat, hlimit⟩
  · obtain ⟨_, _, hcurrent⟩ := id hbeat
    refine ⟨?_, hcurrent⟩
    simp only [exec, execErrorAnswer, hbeat.beatItem_entry he hp]
  · obtain ⟨interval, hruns⟩ := Option.isSome_iff_exists.mp htimer
    refine ⟨?_, hcurrent⟩
    simp only [exec, execLocalAccessTimerExpiry, hruns]
  · have hover : s.mu.retryLimit.toNat < (e.itemAt p).retryCount + 1 := hlimit
    obtain ⟨_, _, hcurrent⟩ := id hbeat
    refine ⟨?_, hcurrent⟩
    simp only [exec, execRetryAnswer, hbeat.beatItem_entry he hp, State.takeRetry, if_pos hover]

/-- R66, R93, R99: a word of a WRITE_CONFIRMED is acknowledged. -/
theorem State.acknowledge_writeEntry (hcurrent : s.lbe.current = some (.entry i)) (he : s.rt.entries[i] = e)
    (hk : e.kind = .writeConfirmed) (lanes : Word) (parity : Nibble) :
    s.acknowledge (e.itemAt p) lanes parity =
      { s with rt := { s.rt with entries := s.rt.entries.set i { e with progress := e.progress + 1 } } } := by
  have hwrite : (e.itemAt p).direction = .write := if_neg (by rw [hk]; decide)
  rw [State.acknowledge_entry _ lanes parity hcurrent, State.checkParity_write i _ lanes parity hwrite,
    State.updateEntry, he, TrackerEntry.acknowledged_write _ hk]
  rfl

/-- R66, R93, R99: a word of a READ is acknowledged and collected, and a parity error sets the entry's mark. -/
theorem State.acknowledge_readEntry (hcurrent : s.lbe.current = some (.entry i)) (he : s.rt.entries[i] = e)
    (hk : e.kind = .read) (lanes : Word) (parity : Nibble) :
    s.acknowledge (e.itemAt p) lanes parity = { s with
      rt := { s.rt with
        entries := s.rt.entries.set i
          { e with progress := e.progress + 1, data := e.data ++ [(e.itemAt p).readWord lanes] } }
      lbe := { s.lbe with parityMarks := if parityError ((e.itemAt p).enablesAt e.progress) lanes parity = true
        then s.lbe.parityMarks.set i true else s.lbe.parityMarks } } := by
  have hread : (e.itemAt p).direction = .read := if_pos hk
  rw [State.acknowledge_entry _ lanes parity hcurrent, State.checkParity_read i _ lanes parity hread]
  simp only [State.updateEntry, RequestTracker.setEntry, he, TrackerEntry.acknowledged_read _ hk]
  rfl

/-- R66, R99: the last word of a READ, with the enables and the stored word in the entry's own terms. -/
theorem State.acknowledge_lastRead (hcurrent : s.lbe.current = some (.entry i)) (he : s.rt.entries[i] = e)
    (hk : e.kind = .read) (hlast : e.progress + 1 = e.length) (lanes : Word) (parity : Nibble) :
    let mask := if e.progress = 0 then e.firstMask else e.lastMask
    s.acknowledge (e.itemAt p) lanes parity = { s with
      rt := { s.rt with
        entries := s.rt.entries.set i
          { e with progress := e.progress + 1, data := e.data ++ [maskWord mask (swapWord p.laneSwap lanes)] } }
      lbe := { s.lbe with parityMarks := if parityError (swapEnables p.laneSwap mask) lanes parity = true
        then s.lbe.parityMarks.set i true else s.lbe.parityMarks } } := by
  intro mask
  rw [State.acknowledge_readEntry hcurrent he hk, TrackerEntry.enablesAt_last hlast, TrackerEntry.readWord_last hlast]

/-- R99: the mark of an entry after a beat that sets it or leaves it. -/
theorem getElem_set_mark (v : Vector Bool 24) (i : Fin 24) (bad : Bool) :
    (if bad = true then v.set i true else v)[i] = (bad || v[i]) := by
  cases bad
  · rfl
  · rw [if_pos rfl, set_getElem, if_pos rfl, Bool.true_or]

/-! ## Orphans (R79) -/

theorem State.endOk_orphan (hcurrent : s.lbe.current = some (.entry i)) (ho : s.rt.entries[i].orphan = true) :
    s.endOk = State.freeEntry i { s with lbe := s.lbe.released } := State.handedBack_orphan .ok hcurrent ho

/-- R79, R101: the entry becomes FREE, and its failure is reported as the entry stood. -/
theorem State.endFailed_orphan (hcurrent : s.lbe.current = some (.entry i)) (ho : s.rt.entries[i].orphan = true)
    (f : Failure) : s.endFailed f =
      (State.freeEntry i { s with lbe := s.lbe.released }).report (entryReport f.errorKind s.rt.entries[i]) := by
  rw [State.endFailed, State.handedBack_orphan f.status hcurrent ho]
  simp only [State.failureReport, hcurrent, State.reportOption]

/-- R79, R95: a RETRY within the limit ends the transaction of an orphan. -/
theorem State.retryWithin_orphan (hcurrent : s.lbe.current = some (.entry i)) (ho : s.rt.entries[i].orphan = true) :
    s.releaseBus.retryWithin.clearCurrent = State.freeEntry i { s with lbe := s.lbe.released } := by
  have hretry : s.releaseBus.retryWithin = s.releaseBus.handBack .ok := by
    have hcurrent' : s.releaseBus.lbe.current = some (.entry i) := hcurrent
    have ho' : s.releaseBus.rt.entries[i].orphan = true := ho
    simp only [State.retryWithin, State.handBack, hcurrent', State.retryEntry, State.finishEntry, if_pos ho']
  rw [hretry, State.handedBack_orphan .ok hcurrent ho]

/-- R79, R99: after the last word of an orphan its entry becomes FREE. -/
theorem State.endLastWord_orphan (hcurrent : s.lbe.current = some (.entry i)) (he : s.rt.entries[i] = e)
    (ho : e.orphan = true) (hmark : e.kind = .writeConfirmed ∨ s.lbe.parityMarks[i] = false) :
    s.endLastWord = State.freeEntry i { s with lbe := s.lbe.released } := by
  have hunmarked : s.parityMarked = false := by
    simp only [State.parityMarked, hcurrent, he]
    rcases hmark with hmark | hmark <;> simp [hmark]
  rw [State.endLastWord, hunmarked, if_neg Bool.false_ne_true, State.endOk_orphan hcurrent (by rw [he]; exact ho)]

/-- R79, R99: the same for a READ with its mark set, whose parity error is then reported. -/
theorem State.endLastWord_orphanMarked (hcurrent : s.lbe.current = some (.entry i)) (he : s.rt.entries[i] = e)
    (ho : e.orphan = true) (hk : e.kind = .read) (hmark : s.lbe.parityMarks[i] = true) :
    s.endLastWord = (State.freeEntry i { s with lbe := s.lbe.released }).report (entryReport .localParity e) := by
  have hmarked : s.parityMarked = true := by
    simp [State.parityMarked, hcurrent, he, hk, hmark]
  rw [State.endLastWord, if_pos hmarked, State.endFailed_orphan hcurrent (by rw [he]; exact ho), he]
  rfl

end

/-- Settles O43: what freeing an entry changes, and for each end of the transaction that it frees the orphan's entry. -/
theorem orphanEndsUnanswered : Obligations.OrphanEndsUnanswered := by
  intro s i e p he hp ho freed
  have ho' : s.rt.entries[i].orphan = true := by rw [he]; exact ho
  have hset (f : TrackerEntry) : (s.rt.entries.set i f)[i] = f := by rw [set_getElem, if_pos rfl]
  obtain ⟨hpwq, hlbe, hecu, hnq, _⟩ := State.freeEntry_frame i { s with lbe := s.lbe.released }
  have htracker : freed.rt = _ := State.freeEntry_rt i { s with lbe := s.lbe.released }
  refine ⟨fun u => u.freeEntry_eq i, ?_, ⟨hecu, ?_, ?_, ?_, hpwq, hnq, fun j hj => ?_, ?_⟩, ?_, ?_, ?_⟩
  · obtain ⟨hwd, hmu⟩ := State.freeEntry_drain i { s with lbe := s.lbe.released }
    obtain ⟨hwd', hmu'⟩ :=
      State.countOut_drain e.generation (s := { s with lbe := s.lbe.released }) (t := s) rfl rfl
    rw [he] at hwd hmu
    exact ⟨hwd.trans hwd', hmu.trans hmu', hlbe⟩
  · rw [htracker, hset]
  · rw [htracker]
  · rw [htracker]
  · rw [htracker, set_getElem, if_neg hj]
  · exact State.freeEntry_link i { s with lbe := s.lbe.released }
  · intro lanes parity hbeat hlast mask bad acked collected marks
    obtain ⟨_, _, hcurrent⟩ := id hbeat
    have hmarks : marks.parityMarks[i] = (bad || s.lbe.parityMarks[i]) := getElem_set_mark _ _ _
    rw [hbeat.exec_ack_last he hp hlast]
    refine ⟨fun hk => ?_, fun hk hbad hmark => ?_, fun hk hmark => ?_⟩
    · rw [State.acknowledge_writeEntry hcurrent he hk]
      exact congrArg _ (State.endLastWord_orphan hcurrent (hset _) ho (.inl hk))
    · rw [State.acknowledge_lastRead hcurrent he hk hlast]
      refine congrArg _ (State.endLastWord_orphan hcurrent (hset _) ho (.inr ?_))
      rw [hmarks, hbad, hmark, Bool.or_false]
    · rw [State.acknowledge_lastRead hcurrent he hk hlast]
      refine congrArg _ (Eq.trans (State.endLastWord_orphanMarked hcurrent (hset _) ho hk ?_) ?_)
      · rw [hmarks, Bool.or_eq_true]
        exact hmark
      · exact congrArg (State.report · _)
          (entryReport_read (e := { collected with progress := e.progress + 1 }) hp hk .localParity)
  · intro hbeat hlimit
    have hwithin : ¬s.mu.retryLimit.toNat < (e.itemAt p).retryCount + 1 := Nat.not_lt.mpr hlimit
    obtain ⟨_, _, hcurrent⟩ := id hbeat
    simp only [exec, execRetryAnswer, hbeat.beatItem_entry he hp, State.takeRetry, if_neg hwithin,
      State.retryWithin_orphan hcurrent ho', freed]
  · intro c f hfails
    obtain ⟨hexec, hcurrent⟩ := hfails.exec_entry he hp
    rw [hexec, State.endFailed_orphan hcurrent ho', he, entryReport_placed hp]

end Sys2Proof.Machine
end

section
/-! PROOF. No two entries that are neither FREE nor orphan hold the same tag (R59). An allocation alone makes an entry
claim a tag, and the tag check has found that no other entry claims it; every other effect leaves the claims as they
are, or ends some of them. -/

namespace Sys2Proof.Machine

/-! ## The claims of one entry -/

theorem TrackerEntry.claims_iff (tag : Tag) (e : TrackerEntry) :
    e.claims tag = true ↔ e.inUse = true ∧ e.orphan = false ∧ e.tag = tag := by
  simp [claims, and_assoc]

theorem TrackerEntry.claims_congr {e e' : TrackerEntry} (hinUse : e'.inUse = e.inUse) (horphan : e'.orphan = e.orphan)
    (htag : e'.tag = e.tag) (tag : Tag) : e'.claims tag = e.claims tag := by
  rw [claims, claims, hinUse, horphan, htag]

theorem TrackerEntry.claims_unused {e : TrackerEntry} (h : e.inUse = false) (tag : Tag) : e.claims tag = false := by
  rw [claims, h, Bool.false_and, Bool.false_and]

/-- An entry in use that keeps its tag and its orphan flag claims no other tag, whatever its state becomes. -/
theorem TrackerEntry.claims_of_inUse {e e' : TrackerEntry} {tag : Tag} (hclaim : e'.claims tag = true)
    (h : e.inUse = true) (horphan : e'.orphan = e.orphan) (htag : e'.tag = e.tag) : e.claims tag = true := by
  obtain ⟨_, ho, ht⟩ := (claims_iff tag e').mp hclaim
  exact (claims_iff tag e).mpr ⟨h, horphan ▸ ho, htag ▸ ht⟩

/-- R63. -/
theorem TrackerEntry.oneRetired_claims (e : TrackerEntry) (tag : Tag) : e.oneRetired.claims tag = e.claims tag := by
  obtain ⟨_, hrest⟩ := e.oneRetired_waits
  exact claims_congr e.oneRetired_inUse.1 (by rw [hrest]) (by rw [hrest]) tag

/-- R76. -/
theorem TrackerEntry.completeWaiting_claims (e : TrackerEntry) (st : Status) (tag : Tag) :
    (if e.waits then e.completed st else e).claims tag = e.claims tag := by
  refine claims_congr (e.completeWaiting_inUse st).1 ?_ ?_ tag <;> split <;> rfl

/-- R66, R93. -/
theorem TrackerEntry.acknowledged_claims (e : TrackerEntry) (w : Word) (tag : Tag) :
    (e.acknowledged w).claims tag = e.claims tag := by
  unfold acknowledged
  split <;> exact claims_congr rfl rfl rfl tag

/-- R78: at a session end no entry that is left is other than an orphan. -/
theorem TrackerEntry.sessionEnded_claims (e : TrackerEntry) (tag : Tag) : e.sessionEnded.claims tag = false := by
  cases h : e.state <;> simp [sessionEnded, freedAtSessionEnd, claims, inUse, freed, h]

/-! ## No new claim -/

/-- Every tag that an entry of `t` claims, the same entry of `s` claims too. -/
def State.NoNewClaim (s t : State) : Prop :=
  ∀ (i : Fin 24) (tag : Tag), t.rt.entries[i].claims tag = true → s.rt.entries[i].claims tag = true

/-- R59: the law, in words of the claims. -/
theorem State.tagsDistinct_iff (s : State) : s.TagsDistinct ↔ ∀ (i j : Fin 24) (tag : Tag),
    s.rt.entries[i].claims tag = true → s.rt.entries[j].claims tag = true → i = j := by
  simp only [TrackerEntry.claims_iff]
  constructor
  · rintro h i j tag ⟨hi, hoi, hti⟩ ⟨hj, hoj, htj⟩
    by_contra hne
    exact h i j hne hi hj hoi hoj (hti.trans htj.symm)
  · intro h i j hne hi hj hoi hoj htag
    exact hne (h i j _ ⟨hi, hoi, rfl⟩ ⟨hj, hoj, htag.symm⟩)

theorem State.NoNewClaim.tagsDistinct {s t : State} (h : s.NoNewClaim t) (hs : s.TagsDistinct) : t.TagsDistinct := by
  rw [State.tagsDistinct_iff] at hs ⊢
  exact fun i j tag hi hj => hs i j tag (h i tag hi) (h j tag hj)

theorem State.NoNewClaim.refl (s : State) : s.NoNewClaim s := fun _ _ h => h

theorem State.NoNewClaim.trans {s t u : State} (h : s.NoNewClaim t) (h' : t.NoNewClaim u) : s.NoNewClaim u :=
  fun i tag hu => h i tag (h' i tag hu)

theorem State.NoNewClaim.of_claims {s t : State}
    (h : ∀ (i : Fin 24) (tag : Tag), t.rt.entries[i].claims tag = s.rt.entries[i].claims tag) : s.NoNewClaim t :=
  fun i tag ht => by rwa [h] at ht

theorem State.NoNewClaim.of_rt {s t : State} (h : t.rt = s.rt) : s.NoNewClaim t :=
  .of_claims fun _ _ => by rw [h]

/-- One entry is replaced. -/
theorem State.NoNewClaim.of_entry {s t : State} {i : Fin 24} {e : TrackerEntry}
    (h : t.rt.entries = s.rt.entries.set i e)
    (he : ∀ tag, e.claims tag = true → s.rt.entries[i].claims tag = true) : s.NoNewClaim t := by
  intro j tag hj
  rw [h, set_getElem] at hj
  split at hj
  next hji => rw [hji]; exact he tag hj
  next => exact hj

/-! ## Retirement, the entry to HALTED and error reports (R48, R52, R76, R152) -/

theorem State.retirement_noNewClaim (g : BitVec 8) (s : State) : s.NoNewClaim (s.retirement g) :=
  .of_claims fun i tag => by rw [State.retirement_entry, TrackerEntry.oneRetired_claims]

theorem State.discardRecord_claims (r : WriteRecord) (i : Fin 24) (tag : Tag) (s : State) :
    (s.discardRecord r).rt.entries[i].claims tag = s.rt.entries[i].claims tag := by
  rw [State.discardRecord_entry, TrackerEntry.oneRetired_claims]

theorem State.discardWaiting_noNewClaim (s : State) : s.NoNewClaim s.discardWaiting :=
  .of_claims fun i tag => State.foldl_discardRecord (fun s => s.rt.entries[i].claims tag)
    (fun s r => State.discardRecord_claims r i tag s) _ _

theorem State.completeWaiting_noNewClaim (s : State) : s.NoNewClaim s.completeWaiting :=
  .of_claims fun i tag => by
    simp only [State.completeWaiting, mapAll_getElem]
    exact TrackerEntry.completeWaiting_claims _ _ tag

theorem State.enterHalted_noNewClaim (s : State) : s.NoNewClaim s.enterHalted := by
  unfold State.enterHalted
  refine State.NoNewClaim.trans ?_ (State.completeWaiting_noNewClaim _)
  refine State.NoNewClaim.trans ?_ (State.discardWaiting_noNewClaim _)
  exact .refl s

theorem State.fatalRecorded_noNewClaim (s : State) : s.NoNewClaim s.fatalRecorded := by
  unfold State.fatalRecorded
  split
  · exact s.enterHalted_noNewClaim
  · exact .refl s

/-- R120: of what follows a recording only the halt is seen. -/
theorem State.afterRecording_noNewClaim (v : Severity) (k : ErrorKind) (o : CaptureOutcome) (s : State) :
    s.NoNewClaim (s.afterRecording v k o) := by
  have hnoticed : s.NoNewClaim (if s.ecu.notifies v then s.requestNotice v k o else s) := by
    split
    · exact .of_rt (by simp)
    · exact .refl s
  unfold State.afterRecording
  dsimp only
  split
  · exact hnoticed.trans (State.fatalRecorded_noNewClaim _)
  · exact hnoticed

theorem State.report_noNewClaim (r : Report) (s : State) : s.NoNewClaim (s.report r) := by
  unfold State.report
  split
  · exact .refl s
  · refine State.NoNewClaim.trans ?_ (State.afterRecording_noNewClaim _ _ _ _)
    exact .refl s

/-- R78. -/
theorem State.endSession_noNewClaim (s : State) : s.NoNewClaim s.endSession := by
  unfold State.endSession
  split
  · exact .refl s
  · intro i tag hclaim
    rw [State.foldl_countOut (fun s => s.rt.entries[i]) (by simp)] at hclaim
    simp only [mapAll_getElem, TrackerEntry.sessionEnded_claims] at hclaim
    cases hclaim

/-- R157, R158: the tracker of a reset claims nothing. -/
theorem State.NoNewClaim.of_reset {s t : State} (h : t.rt = State.reset.rt) : s.NoNewClaim t := by
  intro i tag hclaim
  rw [h, State.reset_entry, TrackerEntry.claims_unused rfl] at hclaim
  cases hclaim

/-! ## Entries that change (R56, R67, R68) -/

theorem State.updateEntry_noNewClaim {i : Fin 24} {f : TrackerEntry → TrackerEntry} {s : State}
    (h : ∀ tag, (f s.rt.entries[i]).claims tag = true → s.rt.entries[i].claims tag = true) :
    s.NoNewClaim (s.updateEntry i f) := .of_entry rfl h

/-- R71, R79. -/
theorem State.freeEntry_noNewClaim (i : Fin 24) (s : State) : s.NoNewClaim (s.freeEntry i) := by
  refine .of_entry (by rw [State.freeEntry_rt]) fun tag hclaim => ?_
  rw [TrackerEntry.claims_unused rfl] at hclaim
  cases hclaim

/-- R67, R77: an entry in use that completes keeps its tag. -/
theorem State.completeEntry_noNewClaim {i : Fin 24} {s : State} (st : Status) (h : s.rt.entries[i].inUse = true) :
    s.NoNewClaim (s.completeEntry i st) :=
  .of_entry rfl fun _ hclaim => TrackerEntry.claims_of_inUse hclaim h rfl rfl

/-- R68: an entry in use that backs off keeps its tag. -/
theorem State.backoffEntry_noNewClaim {i : Fin 24} {s : State} (h : s.rt.entries[i].inUse = true) :
    s.NoNewClaim (s.backoffEntry i) :=
  .of_entry rfl fun _ hclaim => TrackerEntry.claims_of_inUse hclaim h rfl rfl

/-- R64, R65: the entry granted was READY. -/
theorem State.grantEntry_noNewClaim {i : Fin 24} {s : State} (h : s.rt.entries[i].inUse = true) :
    s.NoNewClaim (s.grantEntry i) := by
  have hcleared : s.NoNewClaim ((s.clearMark i).request (.entry i) 0) := .of_rt (by simp)
  refine hcleared.trans (State.updateEntry_noNewClaim fun _ hclaim =>
    TrackerEntry.claims_of_inUse hclaim ?_ rfl rfl)
  simp only [State.request_frame, State.clearMark_frame, h]

/-- R69: an entry whose interval expires was in BACKOFF, or stays as it is. -/
theorem State.entryExpires_noNewClaim (i : Fin 24) (s : State) : s.NoNewClaim (s.entryExpires i) := by
  refine State.NoNewClaim.of_entry rfl fun tag hclaim => ?_
  dsimp only at hclaim
  split at hclaim
  next hbackoff =>
    exact TrackerEntry.claims_of_inUse hclaim (TrackerEntry.inUse_of_state hbackoff (by decide)) rfl rfl
  next => exact hclaim

/-! ## The local bus -/

theorem State.retireHead_noNewClaim (s : State) : s.NoNewClaim s.retireHead := by
  unfold State.retireHead
  split
  · exact .refl s
  · refine State.NoNewClaim.trans ?_ (State.retirement_noNewClaim _ _)
    exact .refl s

theorem State.handBack_noNewClaim {s : State} (st : Status) (h : s.CurrentInUse) : s.NoNewClaim (s.handBack st) := by
  unfold State.handBack State.finishEntry
  split
  · exact .refl s
  · exact s.retireHead_noNewClaim
  next i hcurrent =>
    split
    · exact s.freeEntry_noNewClaim i
    · exact State.completeEntry_noNewClaim st (h i hcurrent)

/-- R100: a transaction ends, with success or not. -/
theorem State.handedBack_noNewClaim {s : State} (st : Status) (h : s.CurrentInUse) :
    s.NoNewClaim (s.releaseBus.handBack st).clearCurrent :=
  (State.NoNewClaim.refl s).trans (State.handBack_noNewClaim (s := s.releaseBus) st h)

theorem State.endFailed_noNewClaim {s : State} (f : Failure) (h : s.CurrentInUse) : s.NoNewClaim (s.endFailed f) := by
  have hended := State.handedBack_noNewClaim f.status h
  unfold State.endFailed State.reportOption
  split
  · exact hended.trans (State.report_noNewClaim _ _)
  · exact hended

theorem State.acknowledge_noNewClaim (it : Item) (lanes : Word) (parity : Nibble) (s : State) :
    s.NoNewClaim (s.acknowledge it lanes parity) := by
  unfold State.acknowledge
  split
  · exact .refl s
  · exact .of_rt (by simp)
  next i _ =>
    have hchecked : s.NoNewClaim (s.checkParity i it lanes parity) := .of_rt (by simp)
    refine hchecked.trans (State.updateEntry_noNewClaim fun tag hclaim => ?_)
    rwa [TrackerEntry.acknowledged_claims] at hclaim

theorem State.takeAck_noNewClaim (it : Item) (lanes : Word) (parity : Nibble) {s : State} (h : s.CurrentInUse) :
    s.NoNewClaim (s.takeAck it lanes parity) := by
  have hack := s.acknowledge_noNewClaim it lanes parity
  have hcurrent := State.acknowledge_currentInUse it lanes parity h
  unfold State.takeAck State.endLastWord
  split
  · exact hack.trans (.of_rt (by simp))
  · split
    · exact hack.trans (State.endFailed_noNewClaim _ hcurrent)
    · exact hack.trans (State.handedBack_noNewClaim .ok hcurrent)

theorem State.retryHead_noNewClaim (s : State) : s.NoNewClaim s.retryHead := by
  unfold State.retryHead
  split
  · exact .refl s
  · split
    · exact .of_claims fun i tag => State.discardRecord_claims _ i tag _
    · exact .of_rt rfl
    · exact .of_rt rfl

theorem State.retryWithin_noNewClaim {s : State} (h : s.CurrentInUse) : s.NoNewClaim s.retryWithin := by
  unfold State.retryWithin State.retryEntry
  split
  · exact .refl s
  · exact s.retryHead_noNewClaim
  next i hcurrent =>
    split
    · exact s.freeEntry_noNewClaim i
    · split
      · exact State.completeEntry_noNewClaim _ (h i hcurrent)
      · exact State.backoffEntry_noNewClaim (h i hcurrent)
      · exact State.backoffEntry_noNewClaim (h i hcurrent)

theorem State.takeRetry_noNewClaim (it : Item) {s : State} (h : s.CurrentInUse) : s.NoNewClaim (s.takeRetry it) := by
  unfold State.takeRetry
  split
  · exact State.endFailed_noNewClaim _ h
  · exact State.retryWithin_noNewClaim (s := s.releaseBus) h

/-! ## Received packets (R59 to R61) -/

/-- The law of the tags passes from `s` to `t`. -/
def State.KeepsTagsDistinct (s t : State) : Prop := s.TagsDistinct → t.TagsDistinct

theorem State.reportRefusal_noNewClaim (posted : Bool) (q : DataRequest) (g : BitVec 8) (o : DecodeOutcome)
    (s : State) : s.NoNewClaim (s.reportRefusal posted q g o) := by
  unfold State.reportRefusal
  split
  · exact s.report_noNewClaim _
  · exact .refl s

theorem State.discardWrite_noNewClaim (q : DataRequest) (o : DecodeOutcome) (s : State) :
    s.NoNewClaim (s.discardWrite q o) := by
  cases o with
  | halted => exact .of_rt (by simp [State.discardWrite])
  | accepted p o => exact .refl s
  | _ => exact (State.NoNewClaim.of_rt (by simp)).trans (State.reportRefusal_noNewClaim _ _ _ _ (s.release .posted))

theorem State.takePosted_noNewClaim (q : DataRequest) (s : State) : Answers (s.takePosted q) s.NoNewClaim := by
  cases hd : decode s.mu.port s.wd.active q with
  | accepted p o =>
    simp only [State.takePosted, hd, State.appendRecord]
    split
    · exact (answers_next _ _).mpr (.of_rt rfl)
    · exact answers_fault _ _
  | _ =>
    rw [State.takePosted_refused hd rfl, answers_next]
    exact s.discardWrite_noNewClaim _ _

theorem allocatedEntry_tag (q : DataRequest) (o : DecodeOutcome) (g a : BitVec 8) (n : Nat) :
    (allocatedEntry q o g a n).tag = q.tag := by
  cases o with
  | accepted p o => rw [allocatedEntry_accepted]; rfl
  | _ => rfl

/-- R59: the entry allocated claims the request's tag, and the tag check has found that no entry claimed it. -/
theorem State.allocate_keepsTagsDistinct {s : State} {q : DataRequest} (ht : s.tagInUse q.tag = false) (i : Fin 24)
    (o : DecodeOutcome) : s.KeepsTagsDistinct (s.allocate i q o) := by
  have hnone (j : Fin 24) : s.rt.entries[j].claims q.tag = false := by
    rw [State.tagInUse, List.any_eq_false] at ht
    exact eq_false_of_ne_true (ht _ (Vector.mem_toList_iff.mpr (Vector.getElem_mem j.isLt)))
  have hentry (j : Fin 24) (tag : Tag) (hclaim : (s.allocate i q o).rt.entries[j].claims tag = true) :
      j = i ∧ tag = q.tag ∨ s.rt.entries[j].claims tag = true := by
    have hset : (s.allocate i q o).rt.entries[j] = if j = i then
        allocatedEntry q o s.wd.generation s.rt.counter s.occupancy else s.rt.entries[j] := set_getElem _ _ _ _
    rw [hset] at hclaim
    split at hclaim
    next hji =>
      obtain ⟨_, _, htag⟩ := (TrackerEntry.claims_iff _ _).mp hclaim
      exact .inl ⟨hji, htag.symm.trans (allocatedEntry_tag _ _ _ _ _)⟩
    next => exact .inr hclaim
  intro hs
  rw [State.tagsDistinct_iff] at hs ⊢
  intro j k tag hj hk
  rcases hentry j tag hj with ⟨rfl, rfl⟩ | hj' <;> rcases hentry k _ hk with ⟨rfl, htag⟩ | hk'
  · rfl
  · exact absurd hk' (ne_true_of_eq_false (hnone k))
  · rw [htag] at hj'
    exact absurd hj' (ne_true_of_eq_false (hnone j))
  · exact hs j k tag hj' hk'

theorem State.takeNonPosted_keepsTagsDistinct (q : DataRequest) (p : Fin 24) (s : State) :
    Answers (s.takeNonPosted q p) s.KeepsTagsDistinct := by
  cases ht : s.tagInUse q.tag with
  | true =>
    rw [State.takeNonPosted_tagInUse p ht, answers_next]
    have hreleased : s.NoNewClaim (s.release .nonPosted) := .of_rt (by simp)
    exact (hreleased.trans (State.report_noNewClaim _ _)).tagsDistinct
  | false =>
    cases hfound : s.freeEntryFor p with
    | none =>
      simp only [State.takeNonPosted, ht, hfound]
      exact answers_fault _ _
    | some i =>
      rw [State.takeNonPosted_allocates ht hfound, answers_next]
      exact fun hs => (State.reportRefusal_noNewClaim _ _ _ _ _).tagsDistinct
        (State.allocate_keepsTagsDistinct ht i _ hs)

theorem State.takeManagement_noNewClaim (r : MgmtRequest) (s : State) :
    Answers (s.takeManagement r) s.NoNewClaim := by
  unfold State.takeManagement
  split
  · split
    · exact answers_fault _ _
    · exact (answers_next _ _).mpr (.of_rt rfl)
  · exact (answers_next _ _).mpr (.of_rt rfl)

theorem State.route_keepsTagsDistinct (k : DownstreamKind) (h : Header) (data : List Word) (p : Fin 24) (s : State) :
    Answers (s.route k h data p) s.KeepsTagsDistinct := by
  match k with
  | .data .writePosted => exact (s.takePosted_noNewClaim _).mono fun _ => State.NoNewClaim.tagsDistinct
  | .data .writeConfirmed => exact s.takeNonPosted_keepsTagsDistinct _ _
  | .data .read => exact s.takeNonPosted_keepsTagsDistinct _ _
  | .mgmt _ => exact (s.takeManagement_noNewClaim _).mono fun _ => State.NoNewClaim.tagsDistinct

theorem State.chargePacket_keepsTagsDistinct (k : DownstreamKind) (h : Header) (data : List Word) (p : Fin 24)
    (s : State) : Answers (s.chargePacket k h data p) s.KeepsTagsDistinct := by
  unfold State.chargePacket
  split
  · exact (answers_next _ _).mpr (s.report_noNewClaim _).tagsDistinct
  · split
    · exact State.route_keepsTagsDistinct _ _ _ _ (s.consume k.pool)
    · have hreleased : s.NoNewClaim ((s.consume k.pool).release k.pool) := .of_rt (by simp)
      exact (answers_next _ _).mpr (hreleased.trans (State.report_noNewClaim _ _)).tagsDistinct

theorem execDownstreamPacket_keepsTagsDistinct (words : List Word) (p : Fin 24) (s : State) :
    Answers (execDownstreamPacket words p s) s.KeepsTagsDistinct := by
  unfold execDownstreamPacket State.takePacket
  split
  · exact (answers_next _ _).mpr id
  · split
    · exact (answers_next _ _).mpr ((s.report_noNewClaim _).trans (State.endSession_noNewClaim _)).tagsDistinct
    · split
      · exact (answers_next _ _).mpr (s.report_noNewClaim _).tagsDistinct
      · exact s.chargePacket_keepsTagsDistinct _ _ _ _

/-! ## Management requests -/

theorem State.placeReply_noNewClaim (k : Fin 2) (m : MgmtReply) (s : State) : s.NoNewClaim (s.placeReply k m) :=
  .of_rt (by simp)

/-- R141, R144: a management command makes no new claim where its own effect makes none. -/
theorem State.executeIf_noNewClaim {s : State} {sel : MgmtRequest → Bool} {body : Fin 2 → MgmtRequest → State → State}
    (hbody : ∀ k r, s.NoNewClaim (body k r s)) : Answers (.next (s.executeIf sel body)) s.NoNewClaim :=
  (answers_next _ _).mpr (State.executeIf_induct (.refl s)
    (fun k r => (s.report_noNewClaim (deniedReport r)).trans (State.placeReply_noNewClaim k _ _)) hbody)

theorem State.writeObjects_noNewClaim (ws : List (ObjectId × Word)) (s : State) :
    s.NoNewClaim (s.writeObjects ws) := by
  unfold State.writeObjects
  induction ws generalizing s with
  | nil => exact .refl s
  | cons ow ws ih => exact (State.NoNewClaim.of_rt (by simp)).trans (ih (s.writeObject ow.1 ow.2))

/-- R146, R153: the halt that a write causes is the one effect on the tracker. -/
theorem State.performWrite_noNewClaim (k : Fin 2) (r : MgmtRequest) (s : State) :
    s.NoNewClaim (s.performWrite k r) := by
  unfold State.performWrite State.haltIfEnabled
  split
  · exact s.placeReply_noNewClaim k _
  next ws _ =>
    have hwritten := s.writeObjects_noNewClaim ws
    split
    · exact (hwritten.trans (State.enterHalted_noNewClaim _)).trans (State.placeReply_noNewClaim k _ _)
    · exact hwritten.trans (State.placeReply_noNewClaim k _ _)

theorem State.performOpen_noNewClaim (k : Fin 2) (r : MgmtRequest) (s : State) : s.NoNewClaim (s.performOpen k r) := by
  unfold State.performOpen
  (repeat' split) <;> exact .of_rt (by simp)

theorem State.performClose_noNewClaim (k : Fin 2) (r : MgmtRequest) (s : State) :
    s.NoNewClaim (s.performClose k r) := by
  unfold State.performClose
  split <;> exact .of_rt (by simp)

theorem State.performCommit_noNewClaim (k : Fin 2) (r : MgmtRequest) (s : State) :
    s.NoNewClaim (s.performCommit k r) := by
  unfold State.performCommit State.holdSlot
  (repeat' split) <;> exact .of_rt (by simp)

theorem State.performClearErrors_noNewClaim (k : Fin 2) (r : MgmtRequest) (s : State) :
    s.NoNewClaim (s.performClearErrors k r) := by
  unfold State.performClearErrors
  (repeat' split) <;> exact .of_rt (by simp)

theorem State.performResetPart_noNewClaim (k : Fin 2) (r : MgmtRequest) (s : State) :
    s.NoNewClaim (s.performResetPart k r) := by
  unfold State.performResetPart
  split
  · exact .of_reset rfl
  all_goals exact .of_rt rfl

/-! ## Every command -/

theorem execArbitrationDecision_noNewClaim (s : State) : Answers (execArbitrationDecision s) s.NoNewClaim := by
  unfold execArbitrationDecision
  split <;> rw [answers_next]
  · exact .of_rt (by simp)
  next i _ hdecision =>
    obtain ⟨_, hready, _⟩ := State.readyOffered_of_decision hdecision
    exact State.grantEntry_noNewClaim (TrackerEntry.inUse_of_state hready (by decide))
  all_goals exact .refl s

theorem execBackoffIntervalExpiry_noNewClaim (item : BackoffItem) (s : State) :
    Answers (execBackoffIntervalExpiry item s) s.NoNewClaim := by
  cases item with
  | head =>
    simp only [execBackoffIntervalExpiry]
    split <;> exact (answers_next _ _).mpr (.of_rt (by simp))
  | entry i =>
    simp only [execBackoffIntervalExpiry]
    split <;> rw [answers_next]
    · exact s.entryExpires_noNewClaim i
    · exact .refl s

/-- R93 to R98: an answer or a timer that ends or advances the transaction of the current item. -/
theorem execAnswer_noNewClaim {s : State} (h : s.CurrentInUse) :
    (∀ lanes parity, Answers (execAckAnswer lanes parity s) s.NoNewClaim) ∧
    Answers (execRetryAnswer s) s.NoNewClaim ∧ Answers (execErrorAnswer s) s.NoNewClaim ∧
    Answers (execLocalAccessTimerExpiry s) s.NoNewClaim := by
  unfold execAckAnswer execRetryAnswer execErrorAnswer execLocalAccessTimerExpiry
  refine ⟨fun lanes parity => ?_, ?_, ?_, ?_⟩ <;> split <;> rw [answers_next]
  · exact State.takeAck_noNewClaim _ lanes parity h
  · exact .refl s
  · exact State.takeRetry_noNewClaim _ h
  · exact .refl s
  · exact State.endFailed_noNewClaim _ h
  · exact .refl s
  · exact State.endFailed_noNewClaim _ h
  · exact .refl s

theorem execBusGrant_noNewClaim (s : State) : Answers (execBusGrant s) s.NoNewClaim := by
  unfold execBusGrant State.beginOwning
  split <;> exact (answers_next _ _).mpr (.of_rt (by simp))

theorem execResetPartTakesEffect_noNewClaim (s : State) : Answers (execResetPartTakesEffect s) s.NoNewClaim := by
  unfold execResetPartTakesEffect
  split <;> rw [answers_next]
  · exact .of_reset rfl
  all_goals exact .refl s

theorem execLinkUp_noNewClaim (s : State) : Answers (execLinkUp s) s.NoNewClaim := by
  unfold execLinkUp
  split <;> exact (answers_next _ _).mpr (.of_rt (by simp))

/-- R171: whichever packet is chosen, the entries stay as they are. -/
theorem execTransmitChoice_noNewClaim (s : State) : Answers (execTransmitChoice s) s.NoNewClaim := by
  unfold execTransmitChoice State.chooseUpstream State.chooseData
  (repeat' split) <;> exact (answers_next _ _).mpr (.of_rt (by simp))

theorem execResponseSent_noNewClaim (s : State) : Answers (execResponseSent s) s.NoNewClaim := by
  unfold execResponseSent
  split <;> rw [answers_next]
  next i _ => exact State.freeEntry_noNewClaim i s.clearTx
  all_goals exact .refl s

theorem execMgmtReplySent_noNewClaim (s : State) : Answers (execMgmtReplySent s) s.NoNewClaim := by
  unfold execMgmtReplySent
  split <;> exact (answers_next _ _).mpr (.of_rt (by simp))

theorem execUpstreamTransmissionEnds_noNewClaim (s : State) :
    Answers (execUpstreamTransmissionEnds s) s.NoNewClaim := by
  unfold execUpstreamTransmissionEnds
  split <;> exact (answers_next _ _).mpr (.of_rt rfl)

theorem execNoticePortWrite_noNewClaim (address : Word) (enables : Nibble) (lanes : Word) (parity : Nibble)
    (s : State) : Answers (execNoticePortWrite address enables lanes parity s) s.NoNewClaim := by
  unfold execNoticePortWrite State.writeWordZero
  (repeat' split) <;> exact (answers_next _ _).mpr (.of_rt (by simp))

theorem execNoticePortRead_noNewClaim (address : Word) (s : State) :
    Answers (execNoticePortRead address s) s.NoNewClaim := by
  unfold execNoticePortRead
  (repeat' split) <;> exact (answers_next _ _).mpr (.of_rt rfl)

/-- R59: each command keeps the law: a received packet by the tag check, and every other makes no new claim. -/
theorem exec_keepsTagsDistinct (c : Instr) {s : State} (h : s.CurrentInUse) :
    Answers (exec c s) s.KeepsTagsDistinct := by
  have hclaim {o : Host.Outcome State Fault Refusal} (ho : Answers o s.NoNewClaim) : Answers o s.KeepsTagsDistinct :=
    ho.mono fun _ => State.NoNewClaim.tagsDistinct
  obtain ⟨hack, hretry, herror, htimeout⟩ := execAnswer_noNewClaim h
  cases c with
  | powerOnReset => exact hclaim ((answers_next _ _).mpr (.of_reset rfl))
  | linkUp => exact hclaim (execLinkUp_noNewClaim s)
  | lossOfLinkSignal => exact hclaim ((answers_next _ _).mpr s.endSession_noNewClaim)
  | downstreamPacket words p => exact execDownstreamPacket_keepsTagsDistinct words p s
  | mgmtRead => exact hclaim (State.executeIf_noNewClaim fun k _ => s.placeReply_noNewClaim k _)
  | mgmtWrite => exact hclaim (State.executeIf_noNewClaim s.performWrite_noNewClaim)
  | haltOnFatalEnable => exact hclaim (State.executeIf_noNewClaim s.performWrite_noNewClaim)
  | openPort => exact hclaim (State.executeIf_noNewClaim s.performOpen_noNewClaim)
  | closePort => exact hclaim (State.executeIf_noNewClaim s.performClose_noNewClaim)
  | commit => exact hclaim (State.executeIf_noNewClaim s.performCommit_noNewClaim)
  | discardStaging => exact hclaim (State.executeIf_noNewClaim fun k _ => State.placeReply_noNewClaim k _ _)
  | clearErrors => exact hclaim (State.executeIf_noNewClaim s.performClearErrors_noNewClaim)
  | resetPart => exact hclaim (State.executeIf_noNewClaim s.performResetPart_noNewClaim)
  | unknownCommandCode => exact hclaim (State.executeIf_noNewClaim fun k _ => s.placeReply_noNewClaim k _)
  | resetPartTakesEffect => exact hclaim (execResetPartTakesEffect_noNewClaim s)
  | arbitrationDecision => exact hclaim (execArbitrationDecision_noNewClaim s)
  | busGrant => exact hclaim (execBusGrant_noNewClaim s)
  | ackAnswer lanes parity => exact hclaim (hack lanes parity)
  | retryAnswer => exact hclaim hretry
  | errorAnswer => exact hclaim herror
  | localAccessTimerExpiry => exact hclaim htimeout
  | backoffIntervalExpiry item => exact hclaim (execBackoffIntervalExpiry_noNewClaim item s)
  | transmitChoice => exact hclaim (execTransmitChoice_noNewClaim s)
  | responseSent => exact hclaim (execResponseSent_noNewClaim s)
  | mgmtReplySent => exact hclaim (execMgmtReplySent_noNewClaim s)
  | noticePortWrite address enables lanes parity =>
    exact hclaim (execNoticePortWrite_noNewClaim address enables lanes parity s)
  | noticePortRead address => exact hclaim (execNoticePortRead_noNewClaim address s)
  | upstreamTransmissionEnds => exact hclaim (execUpstreamTransmissionEnds_noNewClaim s)

/-- Settles O11: in a sound state the entry on the bus is in use, which is all that the commands need. -/
theorem tagsStayDistinct : Obligations.TagsStayDistinct := by
  intro s t hsound hs h
  unfold step at h
  split at h
  · cases h
    exact hs
  next c rest _ =>
    have hcurrent : (s.withPending rest).CurrentInUse := hsound.itemsInUse.current
    exact exec_keepsTagsDistinct c hcurrent t h hs

end Sys2Proof.Machine
end

section
/-! PROOF. How a transaction on the local bus begins and goes on: the arbitration decision (R84 to R88), the grant (R88 to
R92) and the acknowledgement of a word that is not the last (R92, R93, R98). -/

namespace Sys2Proof.Machine

/-! ## The decision (R85, Table 5-2) -/

section
variable {s : State} {i : Fin 24}

theorem State.decision_eq_head (hhead : s.HeadOffered)
    (hturn : (∀ i : Fin 24, ¬s.ReadyOffered i) ∨ s.lbe.streak < s.mu.fairness.toNat) : s.decision = some .head := by
  have hoffered := s.headOffered_iff.mpr hhead
  cases hready : s.readyOffered with
  | none => simp only [decision, hoffered, hready]
  | some i =>
    have hbelow := hturn.resolve_left fun hnone => hnone i ((s.readyOffered_eq_some_iff i).mp hready)
    simp only [decision, hoffered, hready, if_pos hbelow]

theorem State.decision_eq_entry (hready : s.ReadyOffered i)
    (hturn : ¬s.HeadOffered ∨ s.mu.fairness.toNat ≤ s.lbe.streak) : s.decision = some (.entry i) := by
  have hoffered := (s.readyOffered_eq_some_iff i).mpr hready
  cases hhead : s.headOffered with
  | false => simp only [decision, hhead, hoffered]
  | true =>
    have hreached := hturn.resolve_left fun hnone => hnone (s.headOffered_iff.mp hhead)
    simp only [decision, hhead, hoffered, if_neg (Nat.not_lt.mpr hreached)]

theorem State.decision_eq_none (hhead : ¬s.HeadOffered) (hready : ∀ i : Fin 24, ¬s.ReadyOffered i) :
    s.decision = none := by
  have hnoHead : s.headOffered = false := eq_false_of_ne_true fun h => hhead (s.headOffered_iff.mp h)
  simp only [decision, hnoHead, s.readyOffered_eq_none_iff.mpr hready]

/-! ## What a decision grants (R42, R65, R86, R88) -/

/-- R86: the streak that a grant of the head leaves. -/
theorem State.grantHead_eq {r : WriteRecord} {rest : List WriteRecord} (hq : s.pwq = r :: rest) :
    s.grantHead = { s with
      pwq := { r with state := .active } :: rest
      lbe := { s.lbe with
        engine := .requesting, current := some .head, accessTimer := some (s.mu.accessTimeout.toNat * 16)
        streak := if s.readyOffered.isSome = true then s.lbe.streak + 1 else s.lbe.streak } } := by
  simp only [grantHead, setHead, request_frame, hq]
  rfl

/-- R86, R99: the streak and the parity mark that a grant of an entry leaves. -/
theorem State.grantEntry_eq (i : Fin 24) (s : State) : s.grantEntry i = { s with
    rt := { s.rt with entries := s.rt.entries.set i { s.rt.entries[i] with state := .active } }
    lbe := { s.lbe with
      engine := .requesting, current := some (.entry i), streak := 0
      accessTimer := some (s.mu.accessTimeout.toNat * 16)
      parityMarks := if s.rt.entries[i].progress = 0 then s.lbe.parityMarks.set i false
        else s.lbe.parityMarks } } := by
  unfold grantEntry clearMark
  split <;> rfl

end

/-- Settles O38: the decision by the offers and the streak, and then what the grant does. -/
theorem decisionFollowsFairness : Obligations.DecisionFollowsFairness := by
  intro s hidle requesting
  refine ⟨?_, fun i hready hturn => ?_, fun hhead hready => ?_⟩
  · intro r rest hhead hq granted
    refine ⟨fun hnone => ?_, fun ⟨i, hready⟩ hbelow => ?_⟩
    · have hdecision := State.decision_eq_head hhead (.inl hnone)
      have hoffer := s.readyOffered_eq_none_iff.mpr hnone
      simp only [exec, execArbitrationDecision, hidle, hdecision, State.grantHead_eq hq, hoffer]
      rfl
    · have hdecision := State.decision_eq_head hhead (.inr hbelow)
      have hoffer := (s.readyOffered_eq_some_iff i).mpr hready
      simp only [exec, execArbitrationDecision, hidle, hdecision, State.grantHead_eq hq, hoffer]
      rfl
  · simp only [exec, execArbitrationDecision, hidle, State.decision_eq_entry hready hturn, State.grantEntry_eq]
    rfl
  · simp only [exec, execArbitrationDecision, hidle, State.decision_eq_none hhead hready]

/-! ## The grant (R88 to R92) -/

/-- Settles O39: the first cycle is `Item.cycleAt` of the progress; the head or the entry supplies the item. -/
theorem grantBeginsFirstCycle : Obligations.GrantBeginsFirstCycle := by
  refine ⟨fun s it hrequesting hitem => ⟨it.cycleAt it.progress, ?_, it.cycleAt_beginsAt _, it.beatOf_drivesBeat _ _⟩,
    fun s r rest hcurrent hq => State.currentItem_head hcurrent hq, fun s i e p hcurrent he hp => ?_⟩
  · simp only [exec, execBusGrant, hrequesting, hitem]
    rfl
  · rw [State.currentItem_entry hcurrent, he, TrackerEntry.item_placed hp]
    rfl

/-! ## The next word (R92, R93, R98) -/

theorem TrackerEntry.placed_of_item {e : TrackerEntry} {it : Item} (h : e.item = some it) :
    ∃ p : Placement, e.placement = some p ∧ it = e.itemAt p := by
  cases hp : e.placement with
  | none => simp [item, hp] at h
  | some p => exact ⟨p, rfl, Option.some.inj (h.symm.trans (item_placed hp))⟩

/-- R93: an acknowledged word that is not the item's last. -/
theorem State.BeatOf.exec_ack_next {s : State} {item : CurrentItem} {it : Item} (h : s.BeatOf item)
    (hitem : s.currentItem = some it) (hmore : it.progress + 1 < it.length) (lanes : Word) (parity : Nibble) :
    exec (.ackAnswer lanes parity) s = .next ((s.acknowledge it lanes parity).nextBeat it) := by
  simp only [exec, execAckAnswer, h.beatItem, hitem, State.takeAck, if_pos hmore]

/-- Settles O40: the word is handed over by the kind of the item, and then the next beat is driven. -/
theorem ackAdvancesItem : Obligations.AckAdvancesItem := by
  intro s lanes parity it c hcycle hitem hmore
  obtain ⟨hdrives, hburst, hsingle⟩ := it.nextCycle_spec c
  refine ⟨it.nextCycle c, hdrives, hburst, hsingle, fun r rest hbeat hq => ?_, fun i hbeat hk => ?_,
    fun i hbeat hk => ?_⟩
  all_goals
    obtain ⟨_, _, hcurrent⟩ := id hbeat
    rw [hbeat.exec_ack_next hitem hmore]
  · rw [State.acknowledge_head it lanes parity hcurrent hq]
    exact congrArg _ (State.nextBeat_eq it hcycle)
  · obtain ⟨p, _, rfl⟩ := TrackerEntry.placed_of_item ((State.currentItem_entry hcurrent).symm.trans hitem)
    rw [State.acknowledge_writeEntry hcurrent rfl hk]
    exact congrArg _ (State.nextBeat_eq _ hcycle)
  · obtain ⟨p, _, rfl⟩ := TrackerEntry.placed_of_item ((State.currentItem_entry hcurrent).symm.trans hitem)
    rw [State.acknowledge_readEntry hcurrent rfl hk]
    exact congrArg _ (State.nextBeat_eq _ hcycle)

end Sys2Proof.Machine
end

section
/-! PROOF. How a transaction on the local bus ends in the store of its item, for the head of the Posted Write Queue and for
an entry that is no orphan: by success (R93), by a RETRY within the limit (R95, R96) or by a failure (R97 to R101). -/

namespace Sys2Proof.Machine

section
variable {s : State} {i : Fin 24} {e : TrackerEntry} {p : Placement} {r : WriteRecord} {rest : List WriteRecord}

/-! ## The commands that end a transaction (R93, R95, R97, R98) -/

/-- R93: the item's last word is acknowledged. -/
theorem State.BeatOf.exec_ack_end {item : CurrentItem} {it : Item} (h : s.BeatOf item) (hitem : s.currentItem = some it)
    (hlast : it.progress + 1 = it.length) (lanes : Word) (parity : Nibble) :
    exec (.ackAnswer lanes parity) s = .next (s.acknowledge it lanes parity).endLastWord := by
  simp only [exec, execAckAnswer, h.beatItem, hitem, State.takeAck, if_neg hlast.not_lt]

/-- R95: a RETRY within the limit leaves the item to its store. -/
theorem State.BeatOf.exec_retry_within {item : CurrentItem} {it : Item} (h : s.BeatOf item)
    (hitem : s.currentItem = some it) (hlimit : it.retryCount + 1 ≤ s.mu.retryLimit.toNat) :
    exec .retryAnswer s = .next s.releaseBus.retryWithin.clearCurrent := by
  simp only [exec, execRetryAnswer, h.beatItem, hitem, State.takeRetry, if_neg (Nat.not_lt.mpr hlimit)]

theorem State.FailsWith.current {c : Instr} {item : CurrentItem} {n : Nat} {f : Failure} (h : s.FailsWith c item n f) :
    s.lbe.current = some item := by
  rcases h with ⟨_, _, _, _, hcurrent⟩ | ⟨_, _, _, hcurrent⟩ | ⟨_, _, ⟨_, _, hcurrent⟩, _⟩ <;> exact hcurrent

/-- R95, R97, R98: whatever the current item, the three commands end its transaction with their failure. -/
theorem State.FailsWith.exec_current {c : Instr} {item : CurrentItem} {it : Item} {f : Failure}
    (h : s.FailsWith c item it.retryCount f) (hitem : s.currentItem = some it) : exec c s = .next (s.endFailed f) := by
  rcases h with ⟨rfl, rfl, hbeat⟩ | ⟨rfl, rfl, htimer, _⟩ | ⟨rfl, rfl, hbeat, hover⟩
  · simp only [exec, execErrorAnswer, hbeat.beatItem, hitem]
  · obtain ⟨interval, hruns⟩ := Option.isSome_iff_exists.mp htimer
    simp only [exec, execLocalAccessTimerExpiry, hruns]
  · simp only [exec, execRetryAnswer, hbeat.beatItem, hitem, State.takeRetry, if_pos hover]

/-! ## The head (R46, R47, R93) -/

theorem State.parityMarked_head (hcurrent : s.lbe.current = some .head) : s.parityMarked = false := by
  simp only [parityMarked, hcurrent]

theorem State.endLastWord_head (hcurrent : s.lbe.current = some .head) (hq : s.pwq = r :: rest) :
    s.endLastWord = State.retirement r.generation { s with pwq := rest, lbe := s.lbe.released } := by
  rw [endLastWord, parityMarked_head hcurrent, if_neg Bool.false_ne_true]
  exact handedBack_head .ok hcurrent hq

/-- R47, R101: the failure is reported as the record stood. -/
theorem State.endFailed_head (hcurrent : s.lbe.current = some .head) (hq : s.pwq = r :: rest) (f : Failure) :
    s.endFailed f = State.report (recordReport f.errorKind r)
      (State.retirement r.generation { s with pwq := rest, lbe := s.lbe.released }) := by
  rw [endFailed, handedBack_head f.status hcurrent hq]
  simp only [failureReport, hcurrent, hq, List.head?_cons, Option.map_some, reportOption]

/-! ## An entry that is no orphan (R67, R93, R99) -/

theorem State.parityMarked_entry (hcurrent : s.lbe.current = some (.entry i)) (he : s.rt.entries[i] = e) :
    s.parityMarked = (e.kind == .read && s.lbe.parityMarks[i]) := by
  simp only [parityMarked, hcurrent, he]

/-- R74, R101: the failure is reported as the entry stood, after the handing-back. -/
theorem State.endFailed_entry (hcurrent : s.lbe.current = some (.entry i)) (he : s.rt.entries[i] = e) (f : Failure) :
    s.endFailed f = State.report (entryReport f.errorKind e) (s.releaseBus.handBack f.status).clearCurrent := by
  simp only [endFailed, failureReport, hcurrent, he, reportOption]

/-- R99: the two ends of an entry's transaction after its last word. -/
theorem State.endLastWord_unmarked (hcurrent : s.lbe.current = some (.entry i)) (he : s.rt.entries[i] = e)
    (hmark : e.kind = .writeConfirmed ∨ s.lbe.parityMarks[i] = false) :
    s.endLastWord = (s.releaseBus.handBack .ok).clearCurrent := by
  have hunmarked : s.parityMarked = false := by
    rw [parityMarked_entry hcurrent he]
    rcases hmark with hmark | hmark
    · rw [hmark]; rfl
    · rw [hmark, Bool.and_false]
  rw [endLastWord, hunmarked, if_neg Bool.false_ne_true, endOk]

theorem State.endLastWord_marked (hcurrent : s.lbe.current = some (.entry i)) (he : s.rt.entries[i] = e)
    (hk : e.kind = .read) (hmark : s.lbe.parityMarks[i] = true) :
    s.endLastWord =
      State.report (entryReport .localParity e) (s.releaseBus.handBack .dataParity).clearCurrent := by
  have hmarked : s.parityMarked = true := by
    rw [parityMarked_entry hcurrent he, hk, hmark]
    rfl
  rw [endLastWord, if_pos hmarked, endFailed_entry hcurrent he]
  rfl

/-- R67, R93: entry `i`, whose last word has made it `f`, is COMPLETE. -/
theorem State.handedBack_changedEntry (s : State) (f : TrackerEntry) (b : LocalBusEngine) (st : Status)
    (hcurrent : b.current = some (.entry i)) (ho : f.orphan = false) :
    (State.handBack st (State.releaseBus { s with
      rt := { s.rt with entries := s.rt.entries.set i f }, lbe := b })).clearCurrent = { s with
        rt := { s.rt with
          completion := s.rt.completion ++ [i]
          entries := s.rt.entries.set i { f with state := .complete, status := some st, writesAhead := 0 } }
        lbe := b.released } := by
  have hset : (s.rt.entries.set i f)[i] = f := by rw [set_getElem, if_pos rfl]
  rw [State.handedBack_entry (s := { s with rt := { s.rt with entries := s.rt.entries.set i f }, lbe := b }) st hcurrent
    (by rw [hset]; exact ho)]
  simp only [hset, Vector.set_set]

/-! ## RETRY within the limit (R44, R53, R68, R77, R95) -/

/-- R44. -/
theorem State.retryHead_backoff (hq : s.pwq = r :: rest) (hport : s.mu.port ≠ .halted) : s.retryHead = { s with
    pwq := { r with retryCount := r.retryCount + 1, state := .backoff } :: rest
    lbe := { s.lbe with headTimer := some s.backoffInterval } } := by
  unfold retryHead
  rw [hq]
  cases hp : s.mu.port with
  | closed => rfl
  | opened => rfl
  | halted => exact absurd hp hport

/-- R53: a head that retires while HALTED is discarded and counted. -/
theorem State.retryHead_halted (hq : s.pwq = r :: rest) (hport : s.mu.port = .halted) :
    s.retryHead = State.retirement r.generation { s with
      pwq := rest, ecu := { s.ecu with discarded := satIncr s.ecu.discarded } } := by
  simp only [retryHead, hq, hport, discardRecord_eq]

/-- R48, R100: the clearing of the current item has no part in a retirement. -/
theorem State.clearCurrent_retirement (g : BitVec 8) (s : State) :
    (s.retirement g).clearCurrent = s.clearCurrent.retirement g := by
  have hlbe : (s.retirement g).lbe = s.lbe := by simp only [retirement_frame]
  rw [clearCurrent, clearCurrent, retirement_lbe g { s.lbe with current := none } s, hlbe]

/-- R68. -/
theorem State.retryEntry_backoff (ho : s.rt.entries[i].orphan = false) (hport : s.mu.port ≠ .halted) :
    s.retryEntry i = s.backoffEntry i := by
  rw [retryEntry, if_neg (ne_true_of_eq_false ho)]
  cases hp : s.mu.port with
  | closed => rfl
  | opened => rfl
  | halted => exact absurd hp hport

/-- R77. -/
theorem State.retryEntry_halted (ho : s.rt.entries[i].orphan = false) (hport : s.mu.port = .halted) :
    s.retryEntry i = s.completeEntry i .refusedHalted := by
  rw [retryEntry, if_neg (ne_true_of_eq_false ho), hport]

end

/-! ## The statements -/

/-- Settles O41: the head retires with success, since no parity mark is kept for it. -/
theorem lastAckRetiresHead : Obligations.LastAckRetiresHead := by
  intro s lanes parity r rest hbeat hq hlast
  obtain ⟨_, _, hcurrent⟩ := id hbeat
  rw [hbeat.exec_ack_end (State.currentItem_head hcurrent hq) hlast, State.acknowledge_head _ lanes parity hcurrent hq]
  exact congrArg _ (State.endLastWord_head (r := { r with progress := r.progress + 1 }) hcurrent rfl)

/-- Settles O42: the last word is handed over, and the entry's mark decides between OK and DATA_PARITY. -/
theorem lastAckCompletesEntry : Obligations.LastAckCompletesEntry := by
  intro s lanes parity i e p hbeat he hp ho hlast mask marked complete marks collected
  obtain ⟨_, _, hcurrent⟩ := id hbeat
  have hset (f : TrackerEntry) : (s.rt.entries.set i f)[i] = f := by rw [set_getElem, if_pos rfl]
  have hmarks : marks.parityMarks[i] = marked := getElem_set_mark _ _ _
  rw [hbeat.exec_ack_last he hp hlast]
  refine ⟨fun hk => ?_, fun hk hmark => ?_, fun hk hmark => ?_⟩
  · rw [State.acknowledge_writeEntry hcurrent he hk]
    exact congrArg _ (Eq.trans (State.endLastWord_unmarked hcurrent (hset _) (.inl hk))
      (State.handedBack_changedEntry s _ s.lbe .ok hcurrent ho))
  · rw [State.acknowledge_lastRead hcurrent he hk hlast]
    exact congrArg _ (Eq.trans (State.endLastWord_unmarked hcurrent (hset _) (.inr (hmarks.trans hmark)))
      (State.handedBack_changedEntry s _ marks .ok hcurrent ho))
  · rw [State.acknowledge_lastRead hcurrent he hk hlast]
    refine congrArg _ (Eq.trans (State.endLastWord_marked hcurrent (hset _) hk (hmarks.trans hmark)) ?_)
    rw [entryReport_read (e := { collected with progress := e.progress + 1 }) hp hk]
    exact congrArg _ (State.handedBack_changedEntry s _ marks .dataParity hcurrent ho)

/-- Settles O44: what the store of the item does with it, by the port state. -/
theorem retryWithinLimit : Obligations.RetryWithinLimit := by
  refine fun s => ⟨fun r rest hbeat hq hlimit => ?_, fun i hbeat hplaced ho hlimit => ?_⟩
  · obtain ⟨_, _, hcurrent⟩ := id hbeat
    have hwithin : s.releaseBus.retryWithin = s.releaseBus.retryHead := by
      have hcurrent' : s.releaseBus.lbe.current = some .head := hcurrent
      simp only [State.retryWithin, hcurrent']
    rw [hbeat.exec_retry_within (State.currentItem_head hcurrent hq) hlimit, hwithin]
    refine ⟨fun hport => ?_, fun hport => ?_⟩
    · rw [State.retryHead_backoff (s := s.releaseBus) hq hport]
      rfl
    · rw [State.retryHead_halted (s := s.releaseBus) hq hport, State.clearCurrent_retirement]
      rfl
  · obtain ⟨_, _, hcurrent⟩ := id hbeat
    obtain ⟨p, hp⟩ := Option.isSome_iff_exists.mp hplaced
    have hitem : s.currentItem = some (s.rt.entries[i].itemAt p) := by
      rw [State.currentItem_entry hcurrent, TrackerEntry.item_placed hp]
    have hwithin : s.releaseBus.retryWithin = s.releaseBus.retryEntry i := by
      have hcurrent' : s.releaseBus.lbe.current = some (.entry i) := hcurrent
      simp only [State.retryWithin, hcurrent']
    rw [hbeat.exec_retry_within hitem hlimit, hwithin]
    refine ⟨fun hport => ?_, fun hport => ?_⟩
    · rw [State.retryEntry_backoff (s := s.releaseBus) ho hport]
      rfl
    · rw [State.retryEntry_halted (s := s.releaseBus) ho hport]
      rfl

/-- Settles O45: each of the three commands ends the transaction with its failure, and the head retires before the
report. -/
theorem failedHeadRetiresThenReports : Obligations.FailedHeadRetiresThenReports := by
  refine ⟨⟨rfl, rfl, rfl⟩, fun s c f r rest hfails hq => ?_⟩
  have hexec := hfails.exec_current (it := r.item) (State.currentItem_head hfails.current hq)
  rw [hexec, State.endFailed_head hfails.current hq]
  rfl

/-- Settles O46: the same three commands, with the entry COMPLETE before the report. -/
theorem failedEntryCompletesThenReports : Obligations.FailedEntryCompletesThenReports := by
  refine ⟨⟨rfl, rfl, rfl, rfl, rfl, rfl⟩, fun s c f i e p he hfails hp ho => ?_⟩
  obtain ⟨hexec, hcurrent⟩ := hfails.exec_entry he hp
  rw [hexec, State.endFailed_entry hcurrent he, State.handedBack_entry f.status hcurrent (by rw [he]; exact ho), he,
    entryReport_placed hp]

end Sys2Proof.Machine
end

section
/-! PROOF. The Error Capture Unit takes a report (R108 to R120): the three ways of Table 6-4, the notice that is asked for
and the entry to HALTED; and CLEAR_ERRORS (R122). -/

namespace Sys2Proof.Machine

/-! ## The recording (R115 to R118, Table 6-4) -/

/-- 00_scope, "Counts": a count of 16 bits saturates at 65535. -/
theorem satIncr_eq (c : BitVec 16) : satIncr c = if c = 65535 then 65535 else c + 1 := by
  have hlargest : BitVec.allOnes 16 = 65535 := rfl
  unfold satIncr
  rw [hlargest]
  split
  next hc => exact hc
  next => rfl

section
variable {u : ErrorCapture} {old : ErrorRecord} {v : Severity}

/-- R115: an EMPTY record is filled. -/
theorem ErrorCapture.recorded_filled (h : u.record = none) (v : Severity) (r : Report) : u.recorded v r =
    ({ u with record := some ⟨v, r⟩, worst := some v, stamp := u.stamp + 1 }, .filled) := by
  simp only [ErrorCapture.recorded, h]

/-- R116: a record of lower severity is replaced, and the displaced kind joins the set. -/
theorem ErrorCapture.recorded_replaced (h : u.record = some old) (hv : old.severity.code.toNat < v.code.toNat)
    (r : Report) : u.recorded v r =
      ({ u with record := some ⟨v, r⟩, worst := some v, stamp := u.stamp + 1,
                nextErrors := u.nextErrors ||| old.report.kind.bit, overflow := satIncr u.overflow }, .replaced) := by
  simp only [ErrorCapture.recorded, h]
  exact if_pos (decide_eq_true hv)

/-- R117: a record of the same or a higher severity stays, and the report's own kind joins the set. -/
theorem ErrorCapture.recorded_notCaptured (h : u.record = some old) (hv : v.code.toNat ≤ old.severity.code.toNat)
    (r : Report) : u.recorded v r =
      ({ u with nextErrors := u.nextErrors ||| r.kind.bit, overflow := satIncr u.overflow }, .notCaptured) := by
  simp only [ErrorCapture.recorded, h]
  exact if_neg (ne_true_of_eq_false (decide_eq_false (Nat.not_lt.mpr hv)))

end

@[simp] theorem ErrorCapture.recorded_frame (u : ErrorCapture) (v : Severity) (r : Report) :
    (u.recorded v r).1.mask = u.mask ∧ (u.recorded v r).1.severityMap = u.severityMap ∧
    (u.recorded v r).1.notify = u.notify ∧ (u.recorded v r).1.discarded = u.discarded := by
  unfold ErrorCapture.recorded
  (repeat' split) <;> simp

/-! ## The notice and the halt (R119, R120) -/

/-- R128: a notice request reads the link state and the Notice Queue, and changes the queue alone. -/
theorem State.requestNotice_ecu (v : Severity) (k : ErrorKind) (o : CaptureOutcome) (u : ErrorCapture) (s : State) :
    State.requestNotice v k o { s with ecu := u } = { s with ecu := u, nq := (s.requestNotice v k o).nq } := by
  cases hlink : s.link.state with
  | down => simp only [State.requestNotice, hlink]
  | up =>
    simp only [State.requestNotice, hlink]
    split <;> rfl

/-- R119: the state with an unmasked report recorded and its notice asked for, before any halt. -/
def State.recordedAndNoticed (r : Report) (s : State) : State :=
  let v := s.ecu.severityOf r.kind
  { s with
    ecu := (s.ecu.recorded v r).1
    nq := if s.ecu.notifies v then (s.requestNotice v r.kind (s.ecu.recorded v r).2).nq else s.nq }

theorem State.report_masked {s : State} {r : Report} (h : s.ecu.mask.getLsbD r.kind.number = true) : s.report r = s :=
  if_pos h

/-- R108, R119, R120: an unmasked report is recorded, its notice is asked for, and a FATAL one may halt the port. -/
theorem State.report_unmasked {s : State} {r : Report} (h : s.ecu.mask.getLsbD r.kind.number = false) :
    s.report r = if s.ecu.severityOf r.kind = .fatal then (s.recordedAndNoticed r).fatalRecorded
      else s.recordedAndNoticed r := by
  have hnotices : (s.ecu.recorded (s.ecu.severityOf r.kind) r).1.notifies (s.ecu.severityOf r.kind) =
      s.ecu.notifies (s.ecu.severityOf r.kind) := by simp only [ErrorCapture.notifies, ErrorCapture.recorded_frame]
  have hunmasked : ¬s.ecu.masks r.kind = true := ne_true_of_eq_false h
  simp only [State.report, if_neg hunmasked, State.afterRecording, hnotices, State.requestNotice_ecu,
    State.recordedAndNoticed]
  cases s.ecu.notifies (s.ecu.severityOf r.kind) <;> rfl

/-- R52, R121: of the unit's fields the entry to HALTED changes the discarded write count alone. -/
theorem State.enterHalted_ecu (s : State) : ∃ n, s.enterHalted.ecu = { s.ecu with discarded := n } := by
  simp only [State.enterHalted, State.completeWaiting_frame]
  exact ⟨_, (State.foldl_discardRecord_ecu _ _).1⟩

theorem State.fatalRecorded_ecu (s : State) : ∃ n, s.fatalRecorded.ecu = { s.ecu with discarded := n } := by
  unfold State.fatalRecorded
  split
  · exact s.enterHalted_ecu
  · exact ⟨_, rfl⟩

/-- R115 to R118: after an unmasked report the unit is as the recording leaves it, but for the discarded write count. -/
theorem State.report_ecu {s : State} {r : Report} (h : s.ecu.mask.getLsbD r.kind.number = false) :
    ∃ n, (s.report r).ecu = { (s.ecu.recorded (s.ecu.severityOf r.kind) r).1 with discarded := n } := by
  rw [State.report_unmasked h]
  split
  · exact State.fatalRecorded_ecu (s.recordedAndNoticed r)
  · exact ⟨_, rfl⟩

/-- Settles O54: by the record that the report finds. -/
theorem reportIsRecorded : Obligations.ReportIsRecorded := by
  refine ⟨satIncr_eq, fun s r => ⟨State.report_masked, fun hmask => ?_⟩⟩
  obtain ⟨n, hecu⟩ := State.report_ecu hmask
  have hseverity : s.ecu.severityOf r.kind = s.ecu.severityMap[r.kind.number] := rfl
  simp only [hecu, hseverity, ErrorCapture.recorded_frame, true_and]
  refine ⟨fun hempty => ?_, fun old hold hlower => ?_, fun old hold hnotLower => ?_⟩
  · rw [ErrorCapture.recorded_filled hempty]
    exact ⟨rfl, rfl, rfl, rfl, rfl⟩
  · rw [ErrorCapture.recorded_replaced hold hlower]
    exact ⟨rfl, rfl, rfl, rfl, rfl⟩
  · rw [ErrorCapture.recorded_notCaptured hold hnotLower]
    exact ⟨rfl, rfl, rfl, rfl, rfl⟩

/-- Settles O55: the state with the report recorded and the notice asked for is the one that halts, or stays. -/
theorem reportNotifiesAndHalts : Obligations.ReportNotifiesAndHalts := by
  intro s r hmask v o notices recorded
  have houtcome : (s.ecu.recorded v r).2 = o := by
    cases hrecord : s.ecu.record with
    | none => simp only [o, hrecord, ErrorCapture.recorded_filled hrecord]
    | some old =>
      simp only [o, hrecord]
      split
      next hlower => rw [ErrorCapture.recorded_replaced hrecord hlower]
      next hlower => rw [ErrorCapture.recorded_notCaptured hrecord (Nat.not_lt.mp hlower)]
  have hrecorded : s.recordedAndNoticed r = recorded := by
    obtain ⟨n, hecu⟩ := State.report_ecu hmask
    have hunit : { (s.report r).ecu with discarded := s.ecu.discarded } = (s.ecu.recorded v r).1 := by
      obtain ⟨_, _, _, hdiscarded⟩ := s.ecu.recorded_frame v r
      rw [hecu, ← hdiscarded]
      rfl
    simp only [recorded, hunit, notices, ← houtcome]
    rfl
  have hhalts : v = .fatal ∧ s.mu.haltOnFatal = true ∧ s.mu.port ≠ .halted → s.report r = recorded.enterHalted := by
    rintro ⟨hfatal, hhalt⟩
    rw [State.report_unmasked hmask, hrecorded]
    refine (if_pos hfatal).trans ?_
    exact if_pos hhalt
  have hstays : ¬(v = .fatal ∧ s.mu.haltOnFatal = true ∧ s.mu.port ≠ .halted) → s.report r = recorded := by
    intro hstay
    rw [State.report_unmasked hmask, hrecorded]
    split
    next hfatal => exact if_neg fun hhalt => hstay ⟨hfatal, hhalt⟩
    next => rfl
  refine ⟨?_, hhalts, fun h => ?_, hstays⟩
  · by_cases h : v = .fatal ∧ s.mu.haltOnFatal = true ∧ s.mu.port ≠ .halted
    · rw [hhalts h, recorded.enterHalted_frame.1]
    · rw [hstays h]
  · rw [hhalts h, State.enterHalted_mu_port]

/-! ## CLEAR_ERRORS (R122) -/

/-- Settles O34: by the parameter word and its stamp. -/
theorem clearErrorsNeedsStamp : Obligations.ClearErrorsNeedsStamp := by
  intro s k r h
  have hexec : exec .clearErrors s = .next (s.performClearErrors k r) :=
    congrArg Host.Outcome.next (h.executeIf rfl State.performClearErrors)
  rw [hexec]
  refine ⟨fun hdata => ?_, fun w more hdata hstamp => ?_, fun w more hdata hstamp => ?_⟩
  · simp only [State.performClearErrors, hdata, h.placeReply rfl, bareReply]
  · have hcurrent : field w 0 16 = s.ecu.stamp := hstamp
    simp only [State.performClearErrors, hdata, if_pos hcurrent]
    exact congrArg Host.Outcome.next (h.placeReply (t := { s with ecu := s.ecu.cleared }) rfl _)
  · have hstale : ¬field w 0 16 = s.ecu.stamp := hstamp
    simp only [State.performClearErrors, hdata, if_neg hstale, h.placeReply rfl, bareReply]

end Sys2Proof.Machine
end

section
/-! PROOF. The error records agree with one another and the notices stay bounded (R114, R117, R118, R126): a report, a
clear, a local notice, the sending of a notice, a session end and the resets are all that touches them. -/

namespace Sys2Proof.Machine

/-! ## The records (R114, R117, R118) -/

theorem ErrorKind.or_bit_ne_zero (k : ErrorKind) (set : BitVec 13) : set ||| k.bit ≠ 0 := fun h => by
  have hbit : (set ||| k.bit).getLsbD k.number = true := by simp [ErrorKind.bit]
  simp [h] at hbit

theorem satIncr_ne_zero (c : BitVec 16) : satIncr c ≠ 0 := fun h => by
  have hcount := satIncr_toNat c
  have hzero : (0 : BitVec 16).toNat = 0 := rfl
  rw [h, hzero] at hcount
  omega

/-- R115 to R118: the recording of a report keeps the agreement: the record and the worst severity are given together, and
a kind joins the set when the overflow count rises. -/
theorem State.RecordsSound.recorded {s : State} (h : s.RecordsSound) (v : Severity) (r : Report) :
    State.RecordsSound { s with ecu := (s.ecu.recorded v r).1 } := by
  have hraised {u : ErrorCapture} (k : ErrorKind) (hset : u.nextErrors = s.ecu.nextErrors ||| k.bit)
      (hcount : u.overflow = satIncr s.ecu.overflow) : u.nextErrors = 0 ↔ u.overflow = 0 := by
    rw [hset, hcount]
    exact iff_of_false (k.or_bit_ne_zero _) (satIncr_ne_zero _)
  cases hrecord : s.ecu.record with
  | none =>
    rw [ErrorCapture.recorded_filled hrecord]
    exact ⟨rfl, h.setCount, nofun⟩
  | some old =>
    rcases Nat.lt_or_ge old.severity.code.toNat v.code.toNat with hlower | hnotLower
    · rw [ErrorCapture.recorded_replaced hrecord hlower]
      exact ⟨rfl, hraised old.report.kind rfl rfl, nofun⟩
    · rw [ErrorCapture.recorded_notCaptured hrecord hnotLower]
      exact ⟨h.worstIsRecord, hraised r.kind rfl rfl, fun hempty => by simp [hrecord] at hempty⟩

/-! ## The Notice Queue (R126, R128) -/

/-- R126, of the queue alone. -/
def NoticeBounds (l : List Notice) : Prop :=
  l.countP Notice.isLocal ≤ 5 ∧ ∀ v : Severity, l.countP (Notice.hasSeverity v) ≤ 1

theorem State.noticesBounded_iff (s : State) : s.NoticesBounded ↔ NoticeBounds s.nq := Iff.rfl

theorem NoticeBounds.sublist {l l' : List Notice} (h : NoticeBounds l) (hsub : l'.Sublist l) : NoticeBounds l' :=
  ⟨hsub.countP_le.trans h.1, fun v => hsub.countP_le.trans (h.2 v)⟩

theorem NoticeBounds.append_word {l : List Notice} (h : NoticeBounds l) (hfree : l.countP Notice.isLocal < 5) (w : Word) :
    NoticeBounds (l ++ [.word w]) := by
  refine ⟨?_, fun v => ?_⟩
  · rw [List.countP_append]
    exact hfree
  · rw [List.countP_append]
    exact h.2 v

theorem NoticeBounds.append_error {l : List Notice} (h : NoticeBounds l) {v : Severity}
    (hnone : l.any (Notice.hasSeverity v) = false) (k : ErrorKind) (o : CaptureOutcome) (c : BitVec 8) :
    NoticeBounds (l ++ [.error v k o c]) := by
  refine ⟨?_, fun u => ?_⟩
  · rw [List.countP_append]
    exact h.1
  · rw [List.countP_append, List.countP_singleton]
    by_cases huv : v = u
    · have hzero : l.countP (Notice.hasSeverity u) = 0 := by
        rw [List.countP_eq_zero, ← huv]
        exact List.any_eq_false.mp hnone
      rw [hzero]
      split <;> decide
    · simpa [Notice.hasSeverity, huv] using h.2 u

/-- R128: an absorbed request changes a coalesced count and nothing that R126 counts. -/
theorem Notice.absorb_counted (v u : Severity) (n : Notice) :
    (n.absorb v).isLocal = n.isLocal ∧ Notice.hasSeverity u (n.absorb v) = Notice.hasSeverity u n := by
  cases n with
  | word w => exact ⟨rfl, rfl⟩
  | error w k o c =>
    simp only [Notice.absorb]
    split <;> exact ⟨rfl, rfl⟩

theorem NoticeBounds.absorb {l : List Notice} (h : NoticeBounds l) (v : Severity) :
    NoticeBounds (l.map (Notice.absorb v)) := by
  have hlocal : Notice.isLocal ∘ Notice.absorb v = Notice.isLocal :=
    funext fun n => (n.absorb_counted v v).1
  have hseverity (u : Severity) : Notice.hasSeverity u ∘ Notice.absorb v = Notice.hasSeverity u :=
    funext fun n => (n.absorb_counted v u).2
  simpa only [NoticeBounds, List.countP_map, hlocal, hseverity] using h

theorem State.requestNotice_bounded {s : State} (h : NoticeBounds s.nq) (v : Severity) (k : ErrorKind)
    (o : CaptureOutcome) : NoticeBounds (s.requestNotice v k o).nq := by
  unfold State.requestNotice
  split
  · exact h
  · split
    next => exact h.absorb v
    next hnone => exact h.append_error (Bool.eq_false_of_not_eq_true hnone) k o 0

/-- R136: a session end empties the queue. -/
theorem State.endSession_nq (s : State) : s.endSession.nq.Sublist s.nq := by
  unfold State.endSession
  split
  · exact .refl _
  · rw [State.foldl_countOut (fun s => s.nq) (by simp)]
    exact List.nil_sublist _

/-! ## Both laws kept -/

/-- Records that agree still agree, and bounded notices stay bounded. -/
def State.KeepsErrors (s t : State) : Prop :=
  (s.RecordsSound → t.RecordsSound) ∧ (s.NoticesBounded → t.NoticesBounded)

/-- The four fields of the Error Capture Unit that the laws of the records speak of. -/
def State.records (s : State) : Option ErrorRecord × Option Severity × BitVec 13 × BitVec 16 :=
  (s.ecu.record, s.ecu.worst, s.ecu.nextErrors, s.ecu.overflow)

theorem State.KeepsErrors.refl (s : State) : s.KeepsErrors s := ⟨id, id⟩

theorem State.KeepsErrors.trans {s t u : State} (h : s.KeepsErrors t) (h' : t.KeepsErrors u) : s.KeepsErrors u :=
  ⟨h'.1 ∘ h.1, h'.2 ∘ h.2⟩

theorem State.RecordsSound.of_records {s t : State} (hs : s.RecordsSound) (h : t.records = s.records) :
    t.RecordsSound := by
  simp only [State.records, Prod.mk.injEq] at h
  obtain ⟨hrecord, hworst, hset, hcount⟩ := h
  obtain ⟨hs1, hs2, hs3⟩ := hs
  constructor <;> simpa only [hrecord, hworst, hset, hcount]

theorem State.KeepsErrors.of_fewer {s t : State} (hrecords : t.records = s.records) (hnq : t.nq.Sublist s.nq) :
    s.KeepsErrors t :=
  ⟨fun hs => hs.of_records hrecords, fun hs => NoticeBounds.sublist hs hnq⟩

theorem State.KeepsErrors.of_frame {s t : State} (h : t.records = s.records ∧ t.nq = s.nq) : s.KeepsErrors t :=
  .of_fewer h.1 (h.2 ▸ .refl _)

theorem State.KeepsErrors.answers {s t : State} (h : s.KeepsErrors t) : Answers (.next t) s.KeepsErrors :=
  (answers_next _ _).mpr h

/-! ## Reports and session ends -/

theorem State.enterHalted_keepsErrors (s : State) : s.KeepsErrors s.enterHalted :=
  .of_frame (by simp [State.records])

theorem State.recordedAndNoticed_keepsErrors (r : Report) (s : State) : s.KeepsErrors (s.recordedAndNoticed r) := by
  refine ⟨fun hs => (hs.recorded (s.ecu.severityOf r.kind) r).of_records rfl, fun hs => ?_⟩
  rw [State.noticesBounded_iff, State.recordedAndNoticed]
  dsimp only
  split
  · exact State.requestNotice_bounded hs _ _ _
  · exact hs

theorem State.report_keepsErrors (r : Report) (s : State) : s.KeepsErrors (s.report r) := by
  cases hmask : s.ecu.mask.getLsbD r.kind.number with
  | true =>
    rw [State.report_masked hmask]
    exact .refl s
  | false =>
    rw [State.report_unmasked hmask]
    split
    · exact (s.recordedAndNoticed_keepsErrors r).trans (.of_frame (by simp [State.records]))
    · exact s.recordedAndNoticed_keepsErrors r

theorem State.KeepsErrors.report {s t : State} (h : s.KeepsErrors t) (r : Report) : s.KeepsErrors (t.report r) :=
  h.trans (t.report_keepsErrors r)

theorem State.endSession_keepsErrors (s : State) : s.KeepsErrors s.endSession :=
  .of_fewer (by simp [State.records]) s.endSession_nq

/-! ## Received packets -/

theorem State.release_keepsErrors (p : Pool) (s : State) : s.KeepsErrors (s.release p) :=
  .of_frame (by simp [State.records])

theorem State.consume_keepsErrors (p : Pool) (s : State) : s.KeepsErrors (s.consume p) :=
  .of_frame (by simp [State.records])

theorem State.reportRefusal_keepsErrors (posted : Bool) (q : DataRequest) (g : BitVec 8) (o : DecodeOutcome) (s : State) :
    s.KeepsErrors (s.reportRefusal posted q g o) := by
  unfold State.reportRefusal
  split
  · exact s.report_keepsErrors _
  · exact .refl s

theorem State.discardWrite_keepsErrors (q : DataRequest) (o : DecodeOutcome) (s : State) :
    s.KeepsErrors (s.discardWrite q o) := by
  have hrefused : s.KeepsErrors ((s.release .posted).reportRefusal true q s.wd.generation o) :=
    (s.release_keepsErrors .posted).trans (State.reportRefusal_keepsErrors _ _ _ _ _)
  cases o with
  | halted => exact .of_frame (by simp [State.discardWrite, State.records])
  | accepted p o => exact .refl s
  | _ => exact hrefused

theorem State.takePosted_keepsErrors (q : DataRequest) (s : State) : Answers (s.takePosted q) s.KeepsErrors := by
  cases hdecode : decode s.mu.port s.wd.active q with
  | accepted p o =>
    simp only [State.takePosted, hdecode, State.appendRecord]
    split
    · exact State.KeepsErrors.answers (.of_frame ⟨rfl, rfl⟩)
    · exact answers_fault _ _
  | _ =>
    rw [State.takePosted_refused hdecode rfl]
    exact (s.discardWrite_keepsErrors _ _).answers

theorem State.takeNonPosted_keepsErrors (q : DataRequest) (p : Fin 24) (s : State) :
    Answers (s.takeNonPosted q p) s.KeepsErrors := by
  unfold State.takeNonPosted
  split
  · exact ((s.release_keepsErrors _).report _).answers
  · split
    · exact answers_fault _ _
    next i _ =>
      have hallocate (o : DecodeOutcome) : s.KeepsErrors (s.allocate i q o) := .of_frame (by simp [State.records])
      exact ((hallocate _).trans (State.reportRefusal_keepsErrors _ _ _ _ _)).answers

theorem State.takeManagement_keepsErrors (r : MgmtRequest) (s : State) :
    Answers (s.takeManagement r) s.KeepsErrors := by
  have hfill (k : Fin 2) : s.KeepsErrors (s.fillSlot k r) := .of_frame (by simp [State.records])
  unfold State.takeManagement
  split
  · split
    · exact answers_fault _ _
    · exact (hfill 1).answers
  · exact (hfill 0).answers

theorem State.route_keepsErrors (k : DownstreamKind) (h : Header) (data : List Word) (p : Fin 24) (s : State) :
    Answers (s.route k h data p) s.KeepsErrors := by
  match k with
  | .data .writePosted => exact s.takePosted_keepsErrors _
  | .data .writeConfirmed => exact s.takeNonPosted_keepsErrors _ _
  | .data .read => exact s.takeNonPosted_keepsErrors _ _
  | .mgmt _ => exact s.takeManagement_keepsErrors _

theorem State.chargePacket_keepsErrors (k : DownstreamKind) (h : Header) (data : List Word) (p : Fin 24) (s : State) :
    Answers (s.chargePacket k h data p) s.KeepsErrors := by
  have hconsume := s.consume_keepsErrors k.pool
  unfold State.chargePacket
  split
  · exact (s.report_keepsErrors _).answers
  · split
    · exact (State.route_keepsErrors _ _ _ _ _).mono fun _ => hconsume.trans
    · exact ((hconsume.trans (State.release_keepsErrors _ _)).report _).answers

theorem execDownstreamPacket_keepsErrors (words : List Word) (p : Fin 24) (s : State) :
    Answers (execDownstreamPacket words p s) s.KeepsErrors := by
  unfold execDownstreamPacket State.takePacket
  split
  · exact (State.KeepsErrors.refl s).answers
  · split
    · exact ((s.report_keepsErrors _).trans (State.endSession_keepsErrors _)).answers
    · split
      · exact (s.report_keepsErrors _).answers
      · exact s.chargePacket_keepsErrors _ _ _ _

/-! ## The local bus -/

/-- R100, R108: the handing-back leaves the records and the notices, and the failure is reported after it. -/
theorem State.endFailed_keepsErrors (f : Failure) (s : State) : s.KeepsErrors (s.endFailed f) := by
  have hhanded : s.KeepsErrors (s.releaseBus.handBack f.status).clearCurrent := .of_frame (by simp [State.records])
  unfold State.endFailed State.reportOption
  split
  · exact hhanded.report _
  · exact hhanded

theorem State.takeAck_keepsErrors (it : Item) (lanes : Word) (parity : Nibble) (s : State) :
    s.KeepsErrors (s.takeAck it lanes parity) := by
  have hacknowledge : s.KeepsErrors (s.acknowledge it lanes parity) := .of_frame (by simp [State.records])
  unfold State.takeAck State.endLastWord
  split
  · exact hacknowledge.trans (.of_frame (by simp [State.records]))
  · split
    · exact hacknowledge.trans (State.endFailed_keepsErrors _ _)
    · exact hacknowledge.trans (.of_frame (by simp [State.records]))

/-- R53, R121: a head discarded while HALTED raises the discarded write count alone. -/
theorem State.retryWithin_keepsErrors (s : State) : s.KeepsErrors s.retryWithin := by
  unfold State.retryWithin State.retryHead
  (repeat' split) <;> exact .of_frame (by simp [State.records])

theorem State.takeRetry_keepsErrors (it : Item) (s : State) : s.KeepsErrors (s.takeRetry it) := by
  unfold State.takeRetry
  split
  · exact s.endFailed_keepsErrors _
  · have hreleased : s.KeepsErrors s.releaseBus := .of_frame (by simp [State.records])
    exact (hreleased.trans (State.retryWithin_keepsErrors _)).trans (.of_frame (by simp [State.records]))

/-- R93 to R98: an answer, or the local access timer, that ends or advances the transaction in progress. -/
theorem execAnswer_keepsErrors (s : State) :
    (∀ lanes parity, Answers (execAckAnswer lanes parity s) s.KeepsErrors) ∧
    Answers (execRetryAnswer s) s.KeepsErrors ∧ Answers (execErrorAnswer s) s.KeepsErrors ∧
    Answers (execLocalAccessTimerExpiry s) s.KeepsErrors := by
  have hsame := (State.KeepsErrors.refl s).answers
  unfold execAckAnswer execRetryAnswer execErrorAnswer execLocalAccessTimerExpiry
  refine ⟨fun lanes parity => ?_, ?_, ?_, ?_⟩ <;> split
  · exact (s.takeAck_keepsErrors _ lanes parity).answers
  · exact hsame
  · exact (s.takeRetry_keepsErrors _).answers
  · exact hsame
  · exact (s.endFailed_keepsErrors _).answers
  · exact hsame
  · exact (s.endFailed_keepsErrors _).answers
  · exact hsame

theorem execArbitrationDecision_keepsErrors (s : State) : Answers (execArbitrationDecision s) s.KeepsErrors := by
  unfold execArbitrationDecision
  split <;> exact State.KeepsErrors.answers (.of_frame (by simp [State.records]))

theorem execBusGrant_keepsErrors (s : State) : Answers (execBusGrant s) s.KeepsErrors := by
  unfold execBusGrant State.beginOwning
  split <;> exact State.KeepsErrors.answers (.of_frame (by simp [State.records]))

theorem execBackoffIntervalExpiry_keepsErrors (item : BackoffItem) (s : State) :
    Answers (execBackoffIntervalExpiry item s) s.KeepsErrors := by
  unfold execBackoffIntervalExpiry
  (repeat' split) <;> exact State.KeepsErrors.answers (.of_frame (by simp [State.records]))

/-! ## The upstream link -/

theorem execLinkUp_keepsErrors (s : State) : Answers (execLinkUp s) s.KeepsErrors := by
  unfold execLinkUp
  split <;> exact State.KeepsErrors.answers (.of_frame (by simp [State.records]))

/-- R130, R171: a notice that is chosen leaves the queue; a response leaves the queue as it is. -/
theorem State.chooseData_keepsErrors (s : State) : s.KeepsErrors s.chooseData := by
  have hnotice {n : Notice} {rest : List Notice} (hnq : s.nq = n :: rest) : s.KeepsErrors (s.beginNotice n rest) :=
    .of_fewer (by simp [State.records]) (hnq ▸ List.sublist_cons_self n rest)
  unfold State.chooseData
  split
  next => exact .refl s
  next hnq _ => exact hnotice hnq
  next => exact .of_frame (by simp [State.records])
  next hnq _ =>
    split
    · exact hnotice hnq
    · exact .of_frame (by simp [State.records])

theorem State.chooseUpstream_keepsErrors (s : State) : s.KeepsErrors s.chooseUpstream := by
  unfold State.chooseUpstream
  split
  · exact .of_frame (by simp [State.records])
  · split
    · exact .of_frame (by simp [State.records])
    · exact s.chooseData_keepsErrors

theorem execTransmitChoice_keepsErrors (s : State) : Answers (execTransmitChoice s) s.KeepsErrors := by
  unfold execTransmitChoice
  split
  · exact s.chooseUpstream_keepsErrors.answers
  all_goals exact (State.KeepsErrors.refl s).answers

theorem execResponseSent_keepsErrors (s : State) : Answers (execResponseSent s) s.KeepsErrors := by
  unfold execResponseSent
  split <;> exact State.KeepsErrors.answers (.of_frame (by simp [State.records]))

theorem execMgmtReplySent_keepsErrors (s : State) : Answers (execMgmtReplySent s) s.KeepsErrors := by
  unfold execMgmtReplySent
  split <;> exact State.KeepsErrors.answers (.of_frame (by simp [State.records]))

theorem execUpstreamTransmissionEnds_keepsErrors (s : State) :
    Answers (execUpstreamTransmissionEnds s) s.KeepsErrors := by
  unfold execUpstreamTransmissionEnds
  split <;> exact State.KeepsErrors.answers (.of_frame (by simp [State.records]))

/-! ## The notice port (R133, R134) -/

/-- R133: a word is taken only while one of the five LOCAL places is free. -/
theorem State.writeWordZero_keepsErrors (enables : Nibble) (lanes : Word) (parity : Nibble) (s : State) :
    s.KeepsErrors (s.writeWordZero enables lanes parity) := by
  unfold State.writeWordZero
  split
  · exact .of_frame ⟨rfl, rfl⟩
  · split
    · exact .of_frame ⟨rfl, rfl⟩
    · split
      next => exact .of_frame ⟨rfl, rfl⟩
      next hfree =>
        exact ⟨fun hs => hs.of_records rfl, fun hs => NoticeBounds.append_word hs (Nat.not_le.mp hfree) _⟩

theorem execNoticePortWrite_keepsErrors (address : Word) (enables : Nibble) (lanes : Word) (parity : Nibble)
    (s : State) : Answers (execNoticePortWrite address enables lanes parity s) s.KeepsErrors := by
  unfold execNoticePortWrite
  split
  · split
    · exact (s.writeWordZero_keepsErrors _ _ _).answers
    · exact State.KeepsErrors.answers (.of_frame ⟨rfl, rfl⟩)
  · exact State.KeepsErrors.answers (.of_frame ⟨rfl, rfl⟩)

theorem execNoticePortRead_keepsErrors (address : Word) (s : State) :
    Answers (execNoticePortRead address s) s.KeepsErrors := by
  unfold execNoticePortRead
  (repeat' split) <;> exact State.KeepsErrors.answers (.of_frame ⟨rfl, rfl⟩)

/-! ## Management requests and the resets -/

theorem State.KeepsErrors.placeReply {s t : State} (h : s.KeepsErrors t) (k : Fin 2) (m : MgmtReply) :
    s.KeepsErrors (t.placeReply k m) :=
  h.trans (.of_frame (by simp [State.records]))

theorem State.placeReply_keepsErrors (k : Fin 2) (m : MgmtReply) (s : State) : s.KeepsErrors (s.placeReply k m) :=
  (State.KeepsErrors.refl s).placeReply k m

/-- A management command keeps what its own effect keeps; a denied request is reported. -/
theorem State.executeIf_keepsErrors {s : State} {sel : MgmtRequest → Bool} {body : Fin 2 → MgmtRequest → State → State}
    (hbody : ∀ k r, s.KeepsErrors (body k r s)) : Answers (.next (s.executeIf sel body)) s.KeepsErrors :=
  State.KeepsErrors.answers (State.executeIf_induct (.refl s)
    (fun k _ => (s.report_keepsErrors _).placeReply k _) hbody)

/-- R146: the mask, the map and the notify enables are all of the unit that a write reaches. -/
theorem State.writeObjects_keepsErrors (ws : List (ObjectId × Word)) (s : State) : s.KeepsErrors (s.writeObjects ws) := by
  unfold State.writeObjects
  induction ws generalizing s with
  | nil => exact .refl s
  | cons ow ws ih =>
    have hfirst : s.KeepsErrors (s.writeObject ow.1 ow.2) :=
      .of_frame ⟨by cases ow.1 <;> rfl, by simp⟩
    exact hfirst.trans (ih _)

theorem State.performWrite_keepsErrors (k : Fin 2) (r : MgmtRequest) (s : State) :
    s.KeepsErrors (s.performWrite k r) := by
  unfold State.performWrite State.haltIfEnabled
  split
  · exact s.placeReply_keepsErrors k _
  next ws _ =>
    have hwritten := s.writeObjects_keepsErrors ws
    split
    · exact (hwritten.trans (State.enterHalted_keepsErrors _)).placeReply k _
    · exact hwritten.placeReply k _

theorem State.performOpen_keepsErrors (k : Fin 2) (r : MgmtRequest) (s : State) : s.KeepsErrors (s.performOpen k r) := by
  unfold State.performOpen
  (repeat' split) <;> exact .of_frame (by simp [State.records])

theorem State.performClose_keepsErrors (k : Fin 2) (r : MgmtRequest) (s : State) :
    s.KeepsErrors (s.performClose k r) := by
  unfold State.performClose
  split <;> exact .of_frame (by simp [State.records])

theorem State.performCommit_keepsErrors (k : Fin 2) (r : MgmtRequest) (s : State) :
    s.KeepsErrors (s.performCommit k r) := by
  unfold State.performCommit State.holdSlot
  (repeat' split) <;> exact .of_frame (by simp [State.records])

theorem State.performDiscardStaging_keepsErrors (k : Fin 2) (r : MgmtRequest) (s : State) :
    s.KeepsErrors (s.performDiscardStaging k r) :=
  .of_frame ⟨rfl, rfl⟩

/-- R122: after a clear the record is EMPTY, and the worst severity, the set and the overflow count agree with that. -/
theorem State.performClearErrors_keepsErrors (k : Fin 2) (r : MgmtRequest) (s : State) :
    s.KeepsErrors (s.performClearErrors k r) := by
  unfold State.performClearErrors
  split
  · exact s.placeReply_keepsErrors k _
  · split
    · have hcleared : s.KeepsErrors { s with ecu := s.ecu.cleared } :=
        ⟨fun _ => ⟨rfl, iff_of_true rfl rfl, fun _ => rfl⟩, id⟩
      exact hcleared.placeReply k _
    · exact s.placeReply_keepsErrors k _

/-- R157: the Error Capture Unit is kept, and the Notice Queue is emptied. -/
theorem State.partReset_keepsErrors (s : State) : s.KeepsErrors s.partReset :=
  .of_fewer rfl (List.nil_sublist _)

theorem State.performResetPart_keepsErrors (k : Fin 2) (r : MgmtRequest) (s : State) :
    s.KeepsErrors (s.performResetPart k r) := by
  unfold State.performResetPart
  split
  · exact s.partReset_keepsErrors
  all_goals exact .of_frame ⟨rfl, rfl⟩

theorem execResetPartTakesEffect_keepsErrors (s : State) : Answers (execResetPartTakesEffect s) s.KeepsErrors := by
  unfold execResetPartTakesEffect
  split
  · exact s.partReset_keepsErrors.answers
  all_goals exact (State.KeepsErrors.refl s).answers

/-- R158. -/
theorem execPowerOnReset_keepsErrors (s : State) : Answers (execPowerOnReset s) s.KeepsErrors :=
  State.KeepsErrors.answers ⟨fun _ => State.reset_recordsSound.of_records rfl, fun _ => State.reset_noticesBounded⟩

/-! ## Every command -/

theorem exec_keepsErrors (c : Instr) (s : State) : Answers (exec c s) s.KeepsErrors := by
  obtain ⟨hack, hretry, herror, htimeout⟩ := execAnswer_keepsErrors s
  cases c with
  | powerOnReset => exact execPowerOnReset_keepsErrors s
  | linkUp => exact execLinkUp_keepsErrors s
  | lossOfLinkSignal => exact s.endSession_keepsErrors.answers
  | downstreamPacket words p => exact execDownstreamPacket_keepsErrors words p s
  | mgmtRead => exact State.executeIf_keepsErrors fun k _ => s.placeReply_keepsErrors k _
  | mgmtWrite => exact State.executeIf_keepsErrors fun k r => s.performWrite_keepsErrors k r
  | haltOnFatalEnable => exact State.executeIf_keepsErrors fun k r => s.performWrite_keepsErrors k r
  | openPort => exact State.executeIf_keepsErrors fun k r => s.performOpen_keepsErrors k r
  | closePort => exact State.executeIf_keepsErrors fun k r => s.performClose_keepsErrors k r
  | commit => exact State.executeIf_keepsErrors fun k r => s.performCommit_keepsErrors k r
  | discardStaging => exact State.executeIf_keepsErrors fun k r => s.performDiscardStaging_keepsErrors k r
  | clearErrors => exact State.executeIf_keepsErrors fun k r => s.performClearErrors_keepsErrors k r
  | resetPart => exact State.executeIf_keepsErrors fun k r => s.performResetPart_keepsErrors k r
  | unknownCommandCode => exact State.executeIf_keepsErrors fun k _ => s.placeReply_keepsErrors k _
  | resetPartTakesEffect => exact execResetPartTakesEffect_keepsErrors s
  | arbitrationDecision => exact execArbitrationDecision_keepsErrors s
  | busGrant => exact execBusGrant_keepsErrors s
  | ackAnswer lanes parity => exact hack lanes parity
  | retryAnswer => exact hretry
  | errorAnswer => exact herror
  | localAccessTimerExpiry => exact htimeout
  | backoffIntervalExpiry item => exact execBackoffIntervalExpiry_keepsErrors item s
  | transmitChoice => exact execTransmitChoice_keepsErrors s
  | responseSent => exact execResponseSent_keepsErrors s
  | mgmtReplySent => exact execMgmtReplySent_keepsErrors s
  | noticePortWrite address enables lanes parity =>
    exact execNoticePortWrite_keepsErrors address enables lanes parity s
  | noticePortRead address => exact execNoticePortRead_keepsErrors address s
  | upstreamTransmissionEnds => exact execUpstreamTransmissionEnds_keepsErrors s

theorem step_keepsErrors {s t : State} (h : step s = .next t) : s.KeepsErrors t := by
  unfold step at h
  split at h
  · cases h
    exact .refl s
  next c rest _ =>
    have hqueued : s.KeepsErrors (s.withPending rest) := .of_frame ⟨rfl, rfl⟩
    exact hqueued.trans (exec_keepsErrors c _ t h)

/-- Settles O8: both halves are what a step keeps. -/
theorem recordsAndNoticesStaySound : Obligations.RecordsAndNoticesStaySound :=
  ⟨fun _ _ hs h => (step_keepsErrors h).1 hs, fun _ _ hs h => (step_keepsErrors h).2 hs⟩

end Sys2Proof.Machine
end

section
/-! PROOF. The local notice port (R132 to R134): which beats it answers, and how a write and a read of word 0 are answered;
and what an error notice request becomes (R128). -/

namespace Sys2Proof.Machine

/-! ## Which beats the notice port answers (R132) -/

theorem ManagementUnit.portAnswers_iff (m : ManagementUnit) (address : Word) :
    m.portAnswers address = true ↔ m.portEnable = true ∧ address.extractLsb' 4 28 = m.portBase := by
  rw [ManagementUnit.portAnswers, Bool.and_eq_true, beq_iff_eq]
  rfl

section
variable {s : State} {address : Word}

theorem execNoticePortWrite_outside (h : ¬s.mu.portAnswers address = true) (enables : Nibble) (lanes : Word)
    (parity : Nibble) : execNoticePortWrite address enables lanes parity s = .next (s.answerBeat none) :=
  if_neg h

theorem execNoticePortWrite_otherWord (h : s.mu.portAnswers address = true) (hword : portWord address ≠ 0)
    (enables : Nibble) (lanes : Word) (parity : Nibble) :
    execNoticePortWrite address enables lanes parity s = .next (s.answerBeat (plainAnswer .error)) :=
  (if_pos h).trans (if_neg hword)

theorem execNoticePortWrite_wordZero (h : s.mu.portAnswers address = true) (hword : portWord address = 0)
    (enables : Nibble) (lanes : Word) (parity : Nibble) :
    execNoticePortWrite address enables lanes parity s = .next (s.writeWordZero enables lanes parity) :=
  (if_pos h).trans (if_pos hword)

theorem execNoticePortRead_outside (h : ¬s.mu.portAnswers address = true) :
    execNoticePortRead address s = .next (s.answerBeat none) :=
  if_neg h

theorem execNoticePortRead_otherWord (h : s.mu.portAnswers address = true) (hword : portWord address ≠ 0) :
    execNoticePortRead address s = .next (s.answerBeat (plainAnswer .error)) :=
  (if_pos h).trans (if_neg hword)

theorem execNoticePortRead_wordZero (h : s.mu.portAnswers address = true) (hword : portWord address = 0) :
    execNoticePortRead address s =
      .next (s.answerBeat (some ⟨.ack, some (s.portReadWord, parityBits s.portReadWord)⟩)) :=
  (if_pos h).trans (if_pos hword)

end

/-! ## A write beat to word 0 (R133) -/

section
variable {s : State} {enables : Nibble} {lanes : Word} {parity : Nibble}

theorem State.writeWordZero_down (hlink : s.link.state = .down) :
    s.writeWordZero enables lanes parity = s.answerBeat (plainAnswer .error) := by
  simp only [State.writeWordZero, hlink]

theorem State.writeWordZero_bad (hlink : s.link.state = .up)
    (hbad : enables = 0 ∨ parityError enables lanes parity = true) :
    s.writeWordZero enables lanes parity = s.answerBeat (plainAnswer .error) := by
  simp only [State.writeWordZero, hlink, if_pos hbad]

theorem State.writeWordZero_full (hlink : s.link.state = .up)
    (hgood : ¬(enables = 0 ∨ parityError enables lanes parity = true)) (hfull : Config.localPlaces ≤ s.localNotices) :
    s.writeWordZero enables lanes parity = s.answerBeat (plainAnswer .retry) := by
  simp only [State.writeWordZero, hlink, if_neg hgood, if_pos hfull]

theorem State.writeWordZero_taken (hlink : s.link.state = .up)
    (hgood : ¬(enables = 0 ∨ parityError enables lanes parity = true)) (hfree : s.localNotices < Config.localPlaces) :
    s.writeWordZero enables lanes parity =
      State.answerBeat (plainAnswer .ack) { s with nq := s.nq ++ [.word (maskWord enables lanes)] } := by
  simp only [State.writeWordZero, hlink, if_neg hgood, if_neg (Nat.not_le.mpr hfree)]
  rfl

end

/-- Settles O52: by the region, the word, and the four cases of R133 at word 0. -/
theorem localWriteAnswered : Obligations.LocalWriteAnswered := by
  refine ⟨fun s => List.countP_eq_length_filter, ?_⟩
  intro s address enables lanes parity answered inRegion bad
  have hregion : s.mu.portAnswers address = true ↔ inRegion := s.mu.portAnswers_iff address
  have hexec : exec (.noticePortWrite address enables lanes parity) s =
      execNoticePortWrite address enables lanes parity s := rfl
  rw [hexec]
  refine ⟨fun hout => ?_, fun hin hword => ?_, fun hin hword => ?_⟩
  · exact execNoticePortWrite_outside (mt hregion.mp hout) enables lanes parity
  · exact execNoticePortWrite_otherWord (hregion.mpr hin) hword enables lanes parity
  · rw [execNoticePortWrite_wordZero (hregion.mpr hin) hword]
    exact ⟨fun hdown => congrArg _ (State.writeWordZero_down hdown),
      fun hup hbad => congrArg _ (State.writeWordZero_bad hup hbad),
      fun hup hgood hfull => congrArg _ (State.writeWordZero_full hup hgood hfull),
      fun hup hgood hfree => congrArg _ (State.writeWordZero_taken hup hgood hfree)⟩

/-! ## A read beat (R134) -/

theorem State.freeLocalPlaces_eq (s : State) :
    s.freeLocalPlaces = if s.link.state = .up then Config.localPlaces - s.localNotices else 0 := by
  cases hlink : s.link.state <;> simp [State.freeLocalPlaces, hlink]

theorem State.freeLocalPlaces_le (s : State) : s.freeLocalPlaces ≤ Config.localPlaces := by
  rw [State.freeLocalPlaces_eq]
  split
  · exact Nat.sub_le _ _
  · exact Nat.zero_le _

/-- R134: the five places fit byte 0, so the word read is their number. -/
theorem State.portReadWord_toNat (s : State) : s.portReadWord.toNat = s.freeLocalPlaces := by
  have hfits : s.freeLocalPlaces < 2 ^ 8 := s.freeLocalPlaces_le.trans_lt (by decide)
  have hword : s.freeLocalPlaces < 2 ^ 32 := hfits.trans (by decide)
  simp only [State.portReadWord, placeNat, place, BitVec.shiftLeft_zero, BitVec.toNat_setWidth, BitVec.toNat_ofNat,
    Nat.mod_eq_of_lt hfits, Nat.mod_eq_of_lt hword]

/-- R99: the parity bits of a word show no error in it, whatever lanes are checked. -/
theorem parityError_parityBits (enables : Nibble) (w : Word) : parityError enables w (parityBits w) = false := by
  rw [parityError, BitVec.xor_self, BitVec.and_zero]
  rfl

/-- Settles O53: by the region and the word; word 0 reads the number of free LOCAL places with its own parity bits. -/
theorem localReadAnswered : Obligations.LocalReadAnswered := by
  intro s address inRegion
  have hregion : s.mu.portAnswers address = true ↔ inRegion := s.mu.portAnswers_iff address
  have hexec : exec (.noticePortRead address) s = execNoticePortRead address s := rfl
  rw [hexec]
  refine ⟨fun hout => ?_, fun hin hword => ?_, fun hin hword => ?_⟩
  · exact execNoticePortRead_outside (mt hregion.mp hout)
  · exact execNoticePortRead_otherWord (hregion.mpr hin) hword
  · exact ⟨s.portReadWord, parityBits s.portReadWord, execNoticePortRead_wordZero (hregion.mpr hin) hword,
      s.portReadWord_toNat.trans s.freeLocalPlaces_eq, parityError_parityBits 15 s.portReadWord⟩

/-! ## An error notice request (R128) -/

theorem Notice.hasSeverity_iff (v : Severity) (m : Notice) : Notice.hasSeverity v m = true ↔
    ∃ (k : ErrorKind) (o : CaptureOutcome) (n : BitVec 8), m = .error v k o n := by
  cases m with
  | word w => simp [Notice.hasSeverity]
  | error u k o n => simp [Notice.hasSeverity]

/-- R127: a coalesced count saturates at 255. -/
theorem Notice.absorb_same (v : Severity) (k : ErrorKind) (o : CaptureOutcome) (n : BitVec 8) :
    Notice.absorb v (.error v k o n) = .error v k o (if n = 255 then 255 else n + 1) := by
  have hlargest : BitVec.allOnes 8 = 255 := rfl
  rw [Notice.absorb, if_pos rfl, satIncr, hlargest]
  split
  next hn => rw [hn]
  next => rfl

theorem Notice.absorb_other {v : Severity} {m : Notice} (h : Notice.hasSeverity v m = false) : m.absorb v = m := by
  cases m with
  | word w => rfl
  | error u k o n => exact if_neg (beq_eq_false_iff_ne.mp h)

theorem Notice.map_absorb_others {v : Severity} {l : List Notice} (h : ∀ m ∈ l, Notice.hasSeverity v m = false) :
    l.map (Notice.absorb v) = l :=
  (List.map_congr_left fun m hm => Notice.absorb_other (h m hm)).trans l.map_id

section
variable {s : State} {v : Severity}

theorem State.requestNotice_down (hlink : s.link.state = .down) (k : ErrorKind) (o : CaptureOutcome) :
    s.requestNotice v k o = s := by
  simp only [State.requestNotice, hlink]

theorem State.requestNotice_coalesces (hlink : s.link.state = .up) (hsome : s.nq.any (Notice.hasSeverity v) = true)
    (k : ErrorKind) (o : CaptureOutcome) : s.requestNotice v k o = { s with nq := s.nq.map (Notice.absorb v) } := by
  simp only [State.requestNotice, hlink, if_pos hsome]

theorem State.requestNotice_appends (hlink : s.link.state = .up) (hnone : ∀ m ∈ s.nq, Notice.hasSeverity v m = false)
    (k : ErrorKind) (o : CaptureOutcome) : s.requestNotice v k o = { s with nq := s.nq ++ [.error v k o 0] } := by
  have hnotAny : ¬s.nq.any (Notice.hasSeverity v) = true :=
    ne_true_of_eq_false (List.any_eq_false.mpr fun m hm => ne_true_of_eq_false (hnone m hm))
  simp only [State.requestNotice, hlink, if_neg hnotAny]

end

/-- Settles O56: of the queue's notices only the one of the request's severity absorbs it. -/
theorem noticeRequestAppendsOrCoalesces : Obligations.NoticeRequestAppendsOrCoalesces := by
  refine ⟨Notice.hasSeverity_iff, fun s v k o => ⟨fun hdown => State.requestNotice_down hdown k o, ?_,
    fun hup hnone => State.requestNotice_appends hup hnone k o⟩⟩
  intro before after k' o' n hup hnq hothers
  obtain ⟨hbefore, hafter⟩ := List.forall_mem_append.mp hothers
  have hpresent : s.nq.any (Notice.hasSeverity v) = true :=
    List.any_eq_true.mpr ⟨.error v k' o' n, by simp [hnq], (Notice.hasSeverity_iff _ _).mpr ⟨k', o', n, rfl⟩⟩
  rw [State.requestNotice_coalesces hup hpresent, hnq, List.map_append, List.map_cons,
    Notice.map_absorb_others hbefore, Notice.map_absorb_others hafter, Notice.absorb_same]

end Sys2Proof.Machine
end

section
/-! PROOF. Management requests (Chapter 8): how one is taken into a slot (R140, R144), how one is denied (R144), OPEN
and CLOSE (R150, R151), RESET_PART (R156, R157) and codes that name no command (R155). -/

namespace Sys2Proof.Machine

/-! ## The request that is taken (R139, R140, R144) -/

/-- R140: slot 0 is filled if it is FREE, and slot 1 if slot 0 is not. -/
theorem State.takeManagement_fills {s : State} {k : Fin 2}
    (h : s.mu.slots[0] = .free ∧ k = 0 ∨ s.mu.slots[0] ≠ .free ∧ s.mu.slots[1] = .free ∧ k = 1) (r : MgmtRequest) :
    s.takeManagement r = .next (s.fillSlot k r) := by
  have hfree : Slot.free.occupied = false := rfl
  have hoccupied (q : Slot) (hq : q ≠ .free) : q.occupied = true := by
    cases q with
    | free => exact absurd rfl hq
    | _ => rfl
  rcases h with ⟨h0, rfl⟩ | ⟨h0, h1, rfl⟩
  · simp only [State.takeManagement, h0, hfree, Bool.false_eq_true, if_false]
  · simp only [State.takeManagement, hoccupied _ h0, h1, hfree, Bool.false_eq_true, if_true, if_false]

/-- Settles O24: the packet is charged, and its request fills the slot. -/
theorem managementRequestTaken : Obligations.ManagementRequestTaken := by
  intro words p s h data m k hup hp hkind hgrant hform hslot
  have htaken : (s.consume .management).takeManagement (h.mgmtRequest m data (s.mu.isManager h.cls)) =
      .next ((s.consume .management).fillSlot k (h.mgmtRequest m data (s.mu.isManager h.cls))) :=
    State.takeManagement_fills (s := s.consume .management) hslot _
  rw [hp.exec p hup, hkind]
  exact (State.chargePacket_routed (s := s) (k := .mgmt m) p hgrant hform).trans htaken

/-! ## The request that is executed (R141, R142) -/

/-- R142: an effect that leaves the slots alone answers the request it executes. -/
theorem State.Executes.placeReply {s t : State} {k : Fin 2} {r : MgmtRequest} (h : s.Executes k r)
    (hslot : t.mu.slots[k] = s.mu.slots[k]) (m : MgmtReply) : t.placeReply k m = t.replied k r m := by
  obtain ⟨_, hwaiting, _⟩ := h
  exact State.placeReply_waiting m (hslot.trans hwaiting)

/-- R144: a request of a manager class has the effect of the command that selects it. -/
theorem State.Executes.performs {s : State} {k : Fin 2} {r : MgmtRequest} (h : s.Executes k r)
    (hmanager : r.manager = true) {sel : MgmtRequest → Bool} (hsel : sel r = true)
    (body : Fin 2 → MgmtRequest → State → State) : s.executeIf sel body = body k r s := by
  rw [h.executeIf, if_pos hsel, if_pos hmanager]

/-- R144: a request of any other class is denied by the command that selects it. -/
theorem State.Executes.denies {s : State} {k : Fin 2} {r : MgmtRequest} (h : s.Executes k r)
    (hdenied : r.manager = false) {sel : MgmtRequest → Bool} (hsel : sel r = true)
    (body : Fin 2 → MgmtRequest → State → State) : s.executeIf sel body = s.denyRequest k r := by
  rw [h.executeIf, if_pos hsel, if_neg (ne_true_of_eq_false hdenied)]

/-! ## Codes (R155, Table 11-7) -/

/-- Settles O36: such a code names no command, so the request is the one that UNKNOWN_COMMAND_CODE selects. -/
theorem unknownCodeAnsweredBadValue : Obligations.UnknownCodeAnsweredBadValue := by
  intro s k r code h hcode
  have hnone : r.command = none := h.command.trans (CommandCode.ofAddress_eq_none code hcode)
  obtain ⟨hexecutes, hkind, _, hmanager⟩ := h
  have hselected : (r.kind == .mgmtCommand && r.command == none) = true := by rw [hkind, hnone]; rfl
  exact congrArg Host.Outcome.next
    ((hexecutes.performs hmanager (sel := fun r => r.kind == .mgmtCommand && r.command == none) hselected
      State.performUnknown).trans (hexecutes.placeReply rfl _))

/-- Table 11-7: a code that names no command is not one of 1 to 6. -/
theorem CommandCode.ofAddress_eq_none_iff (c : WordAddress) :
    CommandCode.ofAddress c = none ↔ c = 0 ∨ 6 < c.toNat := by
  refine ⟨fun h => ?_, CommandCode.ofAddress_eq_none c⟩
  unfold CommandCode.ofAddress at h
  have hcodes : c ≠ 1 ∧ c ≠ 2 ∧ c ≠ 3 ∧ c ≠ 4 ∧ c ≠ 5 ∧ c ≠ 6 := by
    and_intros <;> rintro rfl <;> cases h
  bv_omega

/-- Table 8-7: a request is selected by the command that is meant for it. -/
theorem MgmtRequest.instr_selects (r : MgmtRequest) :
    ∃ (sel : MgmtRequest → Bool) (body : Fin 2 → MgmtRequest → State → State), sel r = true ∧
      ∀ s, exec r.instr s = .next (s.executeIf sel body) := by
  obtain ⟨kind, cls, tag, address, length, data, manager⟩ := r
  cases kind with
  | mgmtRead => exact ⟨_, State.performRead, rfl, fun _ => rfl⟩
  | mgmtWrite => exact ⟨_, State.performWrite, rfl, fun _ => rfl⟩
  | mgmtCommand =>
    have hcommand (code : Option CommandCode) (h : CommandCode.ofAddress address = code) :
        (MgmtRequest.command ⟨.mgmtCommand, cls, tag, address, length, data, manager⟩ == code) = true := by
      rw [← h]
      exact beq_self_eq_true _
    simp only [MgmtRequest.instr]
    split
    next h => exact ⟨_, State.performOpen, hcommand _ h, fun _ => rfl⟩
    next h => exact ⟨_, State.performClose, hcommand _ h, fun _ => rfl⟩
    next h => exact ⟨_, State.performCommit, hcommand _ h, fun _ => rfl⟩
    next h => exact ⟨_, State.performDiscardStaging, hcommand _ h, fun _ => rfl⟩
    next h => exact ⟨_, State.performClearErrors, hcommand _ h, fun _ => rfl⟩
    next h => exact ⟨_, State.performResetPart, hcommand _ h, fun _ => rfl⟩
    next h => exact ⟨_, State.performUnknown, hcommand _ h, fun _ => rfl⟩

/-! ## Denied requests (R107, R144) -/

/-- R144: a slot that waits holds no COMMIT, so a halt that the report causes leaves it waiting for the DENIED. -/
theorem State.Executes.denyRequest {s : State} {k : Fin 2} {r : MgmtRequest} (h : s.Executes k r) :
    s.denyRequest k r = (s.report (deniedReport r)).replied k r ⟨.denied, []⟩ := by
  refine h.placeReply (s.report_slot _ k ?_) _
  obtain ⟨_, hwaiting, _⟩ := h
  rw [hwaiting]
  rfl

/-- Settles O29: the command selects the request and denies it. -/
theorem nonManagerDenied : Obligations.NonManagerDenied := by
  refine ⟨by decide, CommandCode.ofAddress_eq_none_iff, fun s k r h hdenied => ?_⟩
  intro code
  have hcode : r.kind.code = code := by
    simp only [code]
    cases r.kind <;> rfl
  obtain ⟨sel, body, hsel, hexec⟩ := r.instr_selects
  rw [hexec, h.denies hdenied hsel, h.denyRequest, deniedReport, hcode]

/-! ## OPEN and CLOSE (R150, R151) -/

/-- Settles O30: by the port state. -/
theorem openAndCloseFollowPortState : Obligations.OpenAndCloseFollowPortState := by
  intro s k r moved
  have hmoved (code : WordAddress) (h : s.ExecutesCommand k r code) (p : PortState) (m : MgmtReply) :
      (s.setPort p).placeReply k m = (moved p).replied k r m :=
    h.placeReply (t := s.setPort p) rfl m
  refine ⟨fun h => ?_, fun h => ?_⟩
  · have hexec : exec .openPort s = .next (s.performOpen k r) :=
      congrArg Host.Outcome.next (h.executeIf rfl State.performOpen)
    rw [hexec]
    refine ⟨fun hport => ?_, fun hport => ?_, fun hport hpending => ?_, fun hport hclear => ?_⟩
    · simp only [State.performOpen, hport, hmoved _ h, doneReply]
    · simp only [State.performOpen, hport, h.placeReply rfl, bareReply]
    · simp only [State.performOpen, hport, if_pos hpending, h.placeReply rfl, bareReply]
    · simp only [State.performOpen, hport, if_neg hclear, hmoved _ h, doneReply]
  · have hexec : exec .closePort s = .next (s.performClose k r) :=
      congrArg Host.Outcome.next (h.executeIf rfl State.performClose)
    rw [hexec]
    refine ⟨fun hport => ?_, fun hport => ?_⟩
    · simp only [State.performClose, hport, hmoved _ h, doneReply]
    · cases hp : s.mu.port with
      | opened => exact absurd hp hport
      | _ => simp only [State.performClose, hp, h.placeReply rfl, bareReply]

/-! ## RESET_PART (R156, R157) -/

/-- Settles O35: by the engine's state, and the part reset is that of the power-on values. -/
theorem resetPartKeepsRecords : Obligations.ResetPartKeepsRecords := by
  intro s done
  have hreset : s.partReset = done := rfl
  refine ⟨fun k r h => ?_, fun hpending hidle => ?_, fun hnone => ?_⟩
  · have hexec : exec .resetPart s = .next (s.performResetPart k r) :=
      congrArg Host.Outcome.next (h.executeIf rfl State.performResetPart)
    rw [hexec]
    refine ⟨fun hidle => ?_, fun hbusy => ?_⟩
    · simp only [State.performResetPart, hidle, hreset]
    · cases hengine : s.lbe.engine with
      | idle => exact absurd hengine hbusy
      | _ => simp only [State.performResetPart, hengine, State.holdSlot]
  · simp only [exec, execResetPartTakesEffect, hpending, hidle, hreset]
  · cases hpending : s.mu.resetPending with
    | false => simp only [exec, execResetPartTakesEffect, hpending]
    | true =>
      have hbusy : s.lbe.engine ≠ .idle := hnone.resolve_left (by rw [hpending]; decide)
      cases hengine : s.lbe.engine with
      | idle => exact absurd hengine hbusy
      | _ => simp only [exec, execResetPartTakesEffect, hpending, hengine]

end Sys2Proof.Machine
end

section
/-! PROOF. Reads of the management objects (R145): which indices the map holds, where the fields of each object stand
(Tables 11-8 to 11-10), and the reply of a MGMT_READ. -/

namespace Sys2Proof.Machine

/-! ## The map (Table 11-8) -/

/-- Table 11-8, first column: the index of an object. -/
def ObjectId.index : ObjectId → Nat
  | .identity => 0x000
  | .portStatus => 0x001
  | .busTiming => 0x002
  | .policy => 0x003
  | .noticePort => 0x004
  | .occupancy => 0x005
  | .recordMask => 0x010
  | .severityMap => 0x011
  | .notifyEnables => 0x012
  | .recordStatus => 0x013
  | .capture n => 0x014 + n.val
  | .nextErrors => 0x01A
  | .errorCounts => 0x01B
  | .staging i n => 0x100 + 4 * i.val + n.val
  | .active i n => 0x200 + 4 * i.val + n.val

/-- Table 11-8, R23, R124: each object stands at its index. -/
theorem objectAt_index (o : ObjectId) : objectAt o.index = some o := by
  cases o with
  | capture n => revert n; decide
  | staging i n => exact (objectAt_bank i n).1
  | active i n => exact (objectAt_bank i n).2
  | _ => rfl

/-- Table 11-8: an object of the map is found at its own index alone. -/
theorem eq_index_of_objectAt {index : Nat} {o : ObjectId} (h : objectAt index = some o) : index = o.index := by
  simp only [objectAt, ite_eq_iff, Option.some.injEq, reduceCtorEq, and_false, or_false] at h
  rcases h with ⟨h, rfl⟩ | ⟨-, ⟨h, rfl⟩ | ⟨-, ⟨h, rfl⟩ | ⟨-, ⟨h, rfl⟩ | ⟨-, ⟨h, rfl⟩ | ⟨-, ⟨h, rfl⟩ | ⟨-, ⟨h, rfl⟩ |
    ⟨-, ⟨h, rfl⟩ | ⟨-, ⟨h, rfl⟩ | ⟨-, ⟨h, rfl⟩ | ⟨-, ⟨h, rfl⟩ | ⟨-, ⟨h, rfl⟩ | ⟨-, ⟨h, rfl⟩ | ⟨-, ⟨h, rfl⟩ |
    ⟨-, h, rfl⟩⟩⟩⟩⟩⟩⟩⟩⟩⟩⟩⟩⟩⟩ <;>
    simp only [ObjectId.index, bankObject, Fin.ofNat] <;> omega

theorem objectAt_eq_some_iff (index : Nat) (o : ObjectId) : objectAt index = some o ↔ index = o.index :=
  ⟨eq_index_of_objectAt, fun h => h ▸ objectAt_index o⟩

/-- Table 11-8: the indices of the map. -/
def InMap (index : Nat) : Prop :=
  index ≤ 0x005 ∨ 0x010 ≤ index ∧ index ≤ 0x01B ∨ 0x100 ≤ index ∧ index ≤ 0x13F ∨ 0x200 ≤ index ∧ index ≤ 0x23F

theorem ObjectId.index_inMap (o : ObjectId) : InMap o.index := by
  cases o <;> simp only [ObjectId.index, InMap] <;> omega

theorem exists_index_of_inMap {index : Nat} (h : InMap index) : ∃ o : ObjectId, index = o.index := by
  rcases h with h | ⟨h, h'⟩ | ⟨h, h'⟩ | ⟨h, h'⟩
  · interval_cases index
    exacts [⟨.identity, rfl⟩, ⟨.portStatus, rfl⟩, ⟨.busTiming, rfl⟩, ⟨.policy, rfl⟩, ⟨.noticePort, rfl⟩,
      ⟨.occupancy, rfl⟩]
  · interval_cases index
    exacts [⟨.recordMask, rfl⟩, ⟨.severityMap, rfl⟩, ⟨.notifyEnables, rfl⟩, ⟨.recordStatus, rfl⟩, ⟨.capture 0, rfl⟩,
      ⟨.capture 1, rfl⟩, ⟨.capture 2, rfl⟩, ⟨.capture 3, rfl⟩, ⟨.capture 4, rfl⟩, ⟨.capture 5, rfl⟩, ⟨.nextErrors, rfl⟩,
      ⟨.errorCounts, rfl⟩]
  · refine ⟨.staging ⟨(index - 0x100) / 4, by omega⟩ ⟨(index - 0x100) % 4, by omega⟩, ?_⟩
    simp only [ObjectId.index]
    omega
  · refine ⟨.active ⟨(index - 0x200) / 4, by omega⟩ ⟨(index - 0x200) % 4, by omega⟩, ?_⟩
    simp only [ObjectId.index]
    omega

theorem objectAt_eq_none_iff (index : Nat) : objectAt index = none ↔ ¬InMap index := by
  rw [Option.eq_none_iff_forall_ne_some]
  refine ⟨fun h hin => ?_, fun h o ho => h ?_⟩
  · obtain ⟨o, ho⟩ := exists_index_of_inMap hin
    exact h o ((objectAt_eq_some_iff index o).mpr ho)
  · rw [(objectAt_eq_some_iff index o).mp ho]
    exact o.index_inMap

/-- Table 11-8, second column. -/
theorem ObjectId.writable_iff (o : ObjectId) : o.writable = true ↔
    0x002 ≤ o.index ∧ o.index ≤ 0x004 ∨ 0x010 ≤ o.index ∧ o.index ≤ 0x012 ∨ 0x100 ≤ o.index ∧ o.index ≤ 0x13F := by
  cases o <;> simp only [ObjectId.writable, ObjectId.index, reduceCtorEq, false_iff, true_iff] <;> omega

/-! ## The fields of an object -/

theorem State.Shows.of_eq {s : State} {index lo n : Nat} {b b' : BitVec n} (h : s.Shows index lo b) (hb : b = b') :
    s.Shows index lo b' := hb ▸ h

/-- 000H to 005H. -/
theorem State.shows_part (s : State) :
    s.Shows 0x000 0 0x22405A01#32 ∧
    s.Shows 0x001 0 s.mu.port.code ∧ s.Shows 0x001 2 (BitVec.ofBool (s.link.state == .up)) ∧
    s.Shows 0x001 3 (BitVec.ofBool (s.wd.commit == .draining)) ∧ s.Shows 0x001 8 s.wd.generation ∧
    s.Shows 0x001 16 (BitVec.ofNat 6 s.wd.drain) ∧
    s.Shows 0x002 0 s.mu.accessTimeout ∧ s.Shows 0x002 16 s.mu.retryLimit ∧
    s.Shows 0x003 0 s.mu.retryBackoff ∧ s.Shows 0x003 8 s.mu.fairness ∧
    s.Shows 0x003 12 (BitVec.ofBool s.mu.haltOnFatal) ∧ s.Shows 0x003 16 s.mu.managers ∧
    s.Shows 0x004 0 (BitVec.ofBool s.mu.portEnable) ∧ s.Shows 0x004 4 s.mu.portBase ∧
    s.Shows 0x005 0 (BitVec.ofNat 6 s.pwq.length) ∧ s.Shows 0x005 8 (BitVec.ofNat 5 s.inUseCount) ∧
    s.Shows 0x005 16 (BitVec.ofNat 4 s.nq.length) := by
  refine ⟨⟨.identity, rfl, rfl⟩, ?_⟩
  and_intros <;> refine ⟨_, rfl, ?_⟩ <;>
    simp (disch := omega) only [State.readObject, State.occupancy, placeBit, placeNat, field_or, field_place_same,
      field_place_apart, BitVec.or_zero, BitVec.zero_or]

/-- 010H to 013H, 01AH and 01BH. -/
theorem State.shows_errorUnit (s : State) :
    s.Shows 0x010 0 s.ecu.mask ∧ (∀ n : Fin 13, s.Shows 0x011 (2 * n.val) s.ecu.severityMap[n].code) ∧
    s.Shows 0x012 0 s.ecu.notify ∧
    s.Shows 0x013 0 (BitVec.ofBool s.ecu.record.isSome) ∧ s.Shows 0x013 2 (worstCode s.ecu.worst) ∧
    s.Shows 0x013 16 s.ecu.stamp ∧
    s.Shows 0x01A 0 s.ecu.nextErrors ∧ s.Shows 0x01B 0 s.ecu.overflow ∧ s.Shows 0x01B 16 s.ecu.discarded := by
  refine ⟨?_, fun n => ⟨.severityMap, rfl, field_severityWord _ n⟩, ?_⟩
  on_goal 2 => and_intros
  all_goals refine ⟨_, rfl, ?_⟩
  all_goals simp (disch := omega) only [State.readObject, placeBit, field_or, field_place_same, field_place_apart,
    BitVec.or_zero, BitVec.zero_or]

theorem WindowOrder.bit_eq (o : WindowOrder) : o.bit = (o == .relaxed) := by
  cases o <;> rfl

/-- Table 11-9, R23: the words of entry `i` of the bank that stands from index `base` upward. -/
theorem State.shows_window {s : State} {base : Nat} {e : WindowEntry}
    (hread : ∀ n : Fin 4, ∃ o, objectAt (base + n.val) = some o ∧ s.readObject o = e.word n) :
    s.Shows base 0 (BitVec.ofBool e.enabled) ∧ s.Shows base 4 e.sizeCode ∧
    s.Shows base 9 (BitVec.ofBool e.postingAllowed) ∧ s.Shows base 10 (BitVec.ofBool (e.order == .relaxed)) ∧
    s.Shows base 12 e.laneSwap.code ∧ s.Shows base 14 (BitVec.ofBool e.burstAllowed) ∧ s.Shows base 16 e.attr ∧
    s.Shows (base + 1) 12 e.linkBase ∧ s.Shows (base + 2) 12 e.translationBase ∧ s.Shows (base + 3) 0 e.rights := by
  have hword (n : Fin 4) {lo m : Nat} {b : BitVec m} (h : (e.word n).extractLsb' lo m = b) :
      s.Shows (base + n.val) lo b := by
    obtain ⟨o, ho, hr⟩ := hread n
    exact ⟨o, ho, by rw [hr, h]⟩
  refine ⟨hword 0 ?_, hword 0 ?_, hword 0 ?_, hword 0 ?_, hword 0 ?_, hword 0 ?_, hword 0 ?_,
    hword 1 (field_place_same 12 _ (by omega)), hword 2 (field_place_same 12 _ (by omega)),
    hword 3 (field_place_same 0 _ (by omega))⟩ <;>
    simp (disch := omega) only [WindowEntry.word, ← WindowOrder.bit_eq, placeBit, field_or, field_place_same,
      field_place_apart, BitVec.or_zero, BitVec.zero_or]

/-- R124, R181: while the record is EMPTY the capture objects read as zero. -/
theorem State.shows_emptyRecord {s : State} (h : s.ecu.record = none) (n : Fin 6) : s.Shows (0x014 + n.val) 0 0#32 := by
  refine ⟨.capture n, objectAt_index (.capture n), ?_⟩
  simp only [State.readObject, h]
  rfl

/-- Table 11-10: the fields of a FULL record, and their presence bits. -/
theorem State.shows_record {s : State} {e : ErrorRecord} (h : s.ecu.record = some e) :
    s.Shows 0x014 0 (BitVec.ofNat 4 e.report.kind.number.val) ∧ s.Shows 0x014 4 e.report.source.code ∧
    s.Shows 0x014 6 e.severity.code ∧
    s.Shows 0x014 8 ((e.report.packet.map PacketFields.kindCode).getD 0) ∧
    s.Shows 0x014 12 ((e.report.packet.map PacketFields.cls).getD 0) ∧
    s.Shows 0x014 16 (e.report.tag.getD 0) ∧
    s.Shows 0x014 24 ((e.report.packet.map PacketFields.length).getD 0) ∧
    s.Shows 0x015 2 ((e.report.packet.map PacketFields.linkAddress).getD 0) ∧
    s.Shows 0x016 2 ((e.report.window.map WindowCapture.localAddress).getD 0) ∧
    s.Shows 0x017 0 (e.report.generation.getD 0) ∧
    s.Shows 0x017 8 ((e.report.window.map fun w => BitVec.ofNat 4 w.index.val).getD 0) ∧
    s.Shows 0x017 16 ((e.report.window.map fun w => BitVec.ofNat 5 w.progress).getD 0) ∧
    s.Shows 0x018 0 (e.report.firstData.getD 0) ∧
    s.Shows 0x019 0 (BitVec.ofBool e.report.packet.isSome) ∧ s.Shows 0x019 1 (BitVec.ofBool e.report.tag.isSome) ∧
    s.Shows 0x019 2 (BitVec.ofBool e.report.generation.isSome) ∧
    s.Shows 0x019 3 (BitVec.ofBool e.report.window.isSome) ∧
    s.Shows 0x019 4 (BitVec.ofBool e.report.firstData.isSome) := by
  have hword (n : Fin 6) {lo m : Nat} {b : BitVec m} (hb : (e.word n).extractLsb' lo m = b) :
      s.Shows (0x014 + n.val) lo b :=
    ⟨.capture n, objectAt_index (.capture n), by simp only [State.readObject, h, hb]⟩
  refine ⟨hword 0 ?_, hword 0 ?_, hword 0 ?_, hword 0 ?_, hword 0 ?_, hword 0 ?_, hword 0 ?_, hword 1 ?_, hword 2 ?_,
    hword 3 ?_, hword 3 ?_, hword 3 ?_, hword 4 ?_, hword 5 ?_, hword 5 ?_, hword 5 ?_, hword 5 ?_, hword 5 ?_⟩ <;>
    simp (disch := omega) only [ErrorRecord.word, Report.presence, placeBit, field_or, field_place_same,
      field_place_apart, field_placeOption_same, field_placeOption_apart, BitVec.or_zero, BitVec.zero_or]

/-! ## MGMT_READ (R145) -/

/-- R145: the objects are read when the map holds every index of the range. -/
theorem State.readReply_done {r : MgmtRequest} {os : List ObjectId}
    (h : (List.range r.length.toNat).map (fun n => objectAt (r.address.toNat + n)) = os.map some) (s : State) :
    s.readReply r = ⟨.done, os.map s.readObject⟩ := by
  have hobjects : objectsAt (objectRange r.address.toNat r.length.toNat) = some os := by
    rw [objectsAt_eq_some, objectRange, List.map_map]
    exact h
  rw [State.readReply, hobjects]
  rfl

/-- R145: an index outside the map refuses the whole range. -/
theorem State.readReply_badObject {r : MgmtRequest} {n : Nat} (hn : n < r.length.toNat)
    (h : objectAt (r.address.toNat + n) = none) (s : State) : s.readReply r = ⟨.badObject, []⟩ := by
  have hmem : r.address.toNat + n ∈ objectRange r.address.toNat r.length.toNat :=
    List.mem_map_of_mem (List.mem_range.mpr hn)
  rw [State.readReply, objectsAt_eq_none _ _ hmem h]
  rfl

/-- Settles O26: the reply by whether the range lies in the map, and the fields object by object. -/
theorem readReturnsObjectValues : Obligations.ReadReturnsObjectValues := by
  refine ⟨fun s k r h hkind hmanager => ?_, objectAt_eq_none_iff, fun s => ?_, by decide, by decide, by decide,
    by decide, by decide⟩
  · have hselected : (r.kind == .mgmtRead) = true := by rw [hkind]; rfl
    have hexec : exec .mgmtRead s = .next (s.replied k r (s.readReply r)) :=
      congrArg Host.Outcome.next ((h.performs hmanager (sel := fun r => r.kind == .mgmtRead) hselected
        State.performRead).trans (h.placeReply rfl _))
    rw [hexec]
    refine ⟨fun os hos => ?_, fun ⟨n, hn, hnone⟩ => ?_⟩
    · rw [State.readReply_done hos]
    · rw [State.readReply_badObject hn hnone]
  · obtain ⟨hidentity, hport, hlink, hcommit, hgeneration, hdrain, htimeout, hlimit, hbackoff, hfairness, hhalt,
      hmanagers, henable, hbase, hqueued, hinUse, hnotices⟩ := s.shows_part
    obtain ⟨hmask, hmap, hnotify, hfull, hworst, hstamp, hnext, hoverflow, hdiscarded⟩ := s.shows_errorUnit
    refine ⟨hidentity, hport, hlink, hcommit, hgeneration, hdrain, htimeout, hlimit, hbackoff, hfairness, hhalt,
      hmanagers, henable, hbase, hqueued, hinUse, hnotices, hmask, hmap, hnotify, hfull,
      hworst.of_eq ?_, hstamp, hnext, hoverflow, hdiscarded, ?_, State.shows_emptyRecord, fun _ => State.shows_record⟩
    · cases s.ecu.worst with
      | none => rfl
      | some v => cases v <;> rfl
    · simp only [List.forall_mem_cons, List.not_mem_nil, false_imp_iff, implies_true, and_true]
      exact ⟨fun i => State.shows_window fun n => ⟨_, (objectAt_bank i n).1, rfl⟩,
        fun i => State.shows_window fun n => ⟨_, (objectAt_bank i n).2, rfl⟩⟩

end Sys2Proof.Machine
end

section
/-! PROOF. Writes of the management objects (R146, R180): which check a word fails, and what a MGMT_WRITE and
HALT_ON_FATAL_ENABLE do with the words that pass (R148, R153). -/

namespace Sys2Proof.Machine

/-! ## The checks (R146, R180) -/

/-- R180: a field of the word holds a value out of its range. -/
def OutOfRange (index : Nat) (w : Word) : Prop :=
  index = 0x002 ∧ (w.extractLsb' 0 12 = 0 ∨ w.extractLsb' 16 4 = 0) ∨
    index = 0x003 ∧ (w.extractLsb' 0 8 = 0 ∨ w.extractLsb' 8 4 = 0 ∨ w.extractLsb' 16 4 = 0) ∨
    index = 0x011 ∧ (∃ n : Fin 13, w.extractLsb' (2 * n.val) 2 = 3)

theorem not_outOfRange {index : Nat} (h : index ≠ 0x002 ∧ index ≠ 0x003 ∧ index ≠ 0x011) (w : Word) :
    ¬OutOfRange index w := by
  obtain ⟨htiming, hpolicy, hmap⟩ := h
  rintro (⟨h, _⟩ | ⟨h, _⟩ | ⟨h, _⟩)
  exacts [htiming h, hpolicy h, hmap h]

/-- R180: object by object; three of them have fields whose range leaves values out. -/
theorem ObjectId.inRange_eq_false_iff (o : ObjectId) (w : Word) : o.inRange w = false ↔ OutOfRange o.index w := by
  cases o with
  | busTiming => simp [ObjectId.inRange, OutOfRange, ObjectId.index, field, or_iff_not_imp_left]
  | policy => simp [ObjectId.inRange, OutOfRange, ObjectId.index, field, or_iff_not_imp_left]
  | severityMap => simp [ObjectId.inRange, OutOfRange, ObjectId.index, field]
  | capture n => exact iff_of_false nofun (not_outOfRange (by simp only [ObjectId.index]; omega) w)
  | staging i n => exact iff_of_false nofun (not_outOfRange (by simp only [ObjectId.index]; omega) w)
  | active i n => exact iff_of_false nofun (not_outOfRange (by simp only [ObjectId.index]; omega) w)
  | _ => exact iff_of_false nofun (not_outOfRange (by decide) w)

/-! ## The writes (R146, R153) -/

section
variable {s : State} {k : Fin 2} {r : MgmtRequest}

/-- R146: a write whose words all pass has its objects. -/
theorem MgmtRequest.writes_ok {os : List ObjectId} (hlength : r.data.length = r.length.toNat)
    (hobjects : (List.range r.data.length).map (fun n => objectAt (r.address.toNat + n)) = os.map some)
    (hpass : ∀ n, n < r.data.length → writeFault (r.address.toNat + n) (r.data.getD n 0) = none) :
    r.writes = .ok (os.zip r.data) := by
  rw [MgmtRequest.writes, ← hlength]
  exact checkWrites_eq_ok _ _ os hobjects hpass

/-- R153: the halt leaves a slot that waits alone. -/
theorem State.haltIfEnabled_slot (before : Bool) (h : s.mu.slots[k] = .waiting r) :
    (s.haltIfEnabled before).mu.slots[k] = .waiting r := by
  unfold State.haltIfEnabled
  split
  · exact (s.enterHalted_slot k (by rw [h]; rfl)).trans h
  · exact h

/-- R146: the writes leave the port and the worst severity to the halt of R153. -/
theorem State.haltIfEnabled_written (s : State) (ws : List (ObjectId × Word)) :
    (s.writeObjects ws).haltIfEnabled s.mu.haltOnFatal =
      if s.mu.haltOnFatal = false ∧ (s.writeObjects ws).mu.haltOnFatal = true ∧ s.ecu.worst = some .fatal ∧
          s.mu.port ≠ .halted
        then (s.writeObjects ws).enterHalted else s.writeObjects ws := by
  obtain ⟨_, hport, hworst⟩ := s.writeObjects_frame ws
  simp only [State.haltIfEnabled, hport, hworst]

/-- R146, R153: all objects are written, the port may halt, and the reply is ready last. -/
theorem State.Executes.performWrite_ok (h : s.Executes k r) {ws : List (ObjectId × Word)} (hws : r.writes = .ok ws) :
    s.performWrite k r =
      State.replied ((s.writeObjects ws).haltIfEnabled s.mu.haltOnFatal) k r ⟨.done, []⟩ := by
  obtain ⟨hslots, _, _⟩ := s.writeObjects_frame ws
  obtain ⟨_, hwaiting, _⟩ := h
  have hwritten : (s.writeObjects ws).mu.slots[k] = .waiting r := by rw [hslots, hwaiting]
  simp only [State.performWrite, hws]
  exact State.placeReply_waiting _ (State.haltIfEnabled_slot _ hwritten)

/-- R146: a write that fails a check writes nothing. -/
theorem State.Executes.performWrite_error (h : s.Executes k r) {st : MgmtStatus} (hst : r.writes = .error st) :
    s.performWrite k r = s.replied k r ⟨st, []⟩ := by
  simp only [State.performWrite, hst]
  exact h.placeReply rfl _

end

/-- Settles O27: the checks decide, and each of them speaks of the index's object. -/
theorem writeIsAllOrNothing : Obligations.WriteIsAllOrNothing := by
  refine ⟨fun s k r h hkind hmanager hlength => ?_, fun s o w rest => ⟨rfl, rfl⟩, fun index w => ?_⟩
  · have hselected : (r.kind == .mgmtWrite) = true := by rw [hkind]; rfl
    have hexec : exec .mgmtWrite s = .next (s.performWrite k r) :=
      congrArg Host.Outcome.next
        (h.performs hmanager (sel := fun r => r.kind == .mgmtWrite) hselected State.performWrite)
    rw [hexec]
    refine ⟨fun n st hn hbefore hfails => ?_, fun os hobjects hpass => ?_⟩
    · have hst : r.writes = .error st := by
        rw [MgmtRequest.writes, ← hlength]
        exact checkWrites_eq_error _ _ n st hn hbefore hfails
      rw [h.performWrite_error hst]
    · intro written
      rw [h.performWrite_ok (MgmtRequest.writes_ok hlength hobjects hpass), State.haltIfEnabled_written]
  · cases ho : objectAt index with
    | none =>
      simp only [writeFault, ho]
      exact (if_pos ((objectAt_eq_none_iff index).mp ho)).symm
    | some o =>
      obtain rfl := eq_index_of_objectAt ho
      simp only [writeFault, ho]
      refine Eq.trans ?_ (if_neg (not_not.mpr o.index_inMap)).symm
      refine if_congr ?_ rfl (if_congr (o.inRange_eq_false_iff w) rfl rfl)
      rw [← Bool.not_eq_true, o.writable_iff]

/-- Settles O28: HALT_ON_FATAL_ENABLE selects a write exactly when it enables halt-on-fatal. -/
theorem enablingHaltOnFatalHalts : Obligations.EnablingHaltOnFatalHalts := by
  intro s k r os h hkind hmanager hlength hobjects hpass hdisabled written
  have hws : r.writes = .ok (os.zip r.data) := MgmtRequest.writes_ok hlength hobjects hpass
  have hselects : s.enablesHalt r = written.mu.haltOnFatal := by
    simp only [State.enablesHalt, hkind, hmanager, hdisabled, hws]
    rfl
  have hexec : exec .haltOnFatalEnable s = .next (s.executeIf s.enablesHalt State.performWrite) := rfl
  refine ⟨fun henables => ?_, fun hleaves => ?_⟩
  · have hwritten : (s.writeObjects (os.zip r.data)).mu.haltOnFatal = true := henables
    rw [hexec, h.performs hmanager (hselects.trans henables), h.performWrite_ok hws, State.haltIfEnabled_written]
    simp only [hdisabled, hwritten, true_and, written]
  · rw [hexec, h.executeIf, if_neg (ne_true_of_eq_false (hselects.trans hleaves))]

end Sys2Proof.Machine
end

section
/-! PROOF. The entry to HALTED as a whole (R152): the discards (R52, R121), the completions (R76), the timers that stop
(R96), and what the discards do to a drain (R34, R30, R31). -/

namespace Sys2Proof.Machine

/-! ## The discards and the completions (R52, R76) -/

/-- R52, R96: the port is HALTED, and the queue holds its ACTIVE records alone; those that leave it have not yet
retired. -/
def State.queueHalted (s : State) : State :=
  { s with
    mu := { s.mu with port := .halted }
    pwq := s.pwq.filter fun r => r.state == .active
    lbe := { s.lbe with headTimer := if s.pwq.any fun r => r.state == .backoff then none else s.lbe.headTimer } }

/-- R52: the records that leave the queue. -/
def State.discards (s : State) : List WriteRecord := s.pwq.filter fun r => r.state != .active

theorem State.enterHalted_eq (s : State) :
    s.enterHalted = (s.discards.foldl State.discardRecord s.queueHalted).completeWaiting := rfl

/-- R121: the discarded write count saturates. -/
theorem State.enterHalted_discarded (s : State) :
    s.enterHalted.ecu = { s.ecu with discarded := s.enterHalted.ecu.discarded } ∧
    s.enterHalted.ecu.discarded.toNat = min 65535 (s.ecu.discarded.toNat + s.discards.length) := by
  simp only [State.enterHalted_eq, State.completeWaiting_frame]
  exact State.foldl_discardRecord_ecu s.discards s.queueHalted

/-- R48, R169: the credits of the discarded records. -/
theorem State.enterHalted_link (s : State) : s.enterHalted.link = if s.link.state = .up then { s.link with
    posted := ⟨s.link.posted.outstanding, s.link.posted.awaiting + s.discards.length⟩ } else s.link := by
  simp only [State.enterHalted_eq, State.completeWaiting_frame]
  exact State.foldl_discardRecord_link s.discards s.queueHalted

/-- R76: an entry that waits completes, whatever the discards did to its writes-ahead count, and any other stays. -/
theorem State.enterHalted_entry (i : Fin 24) (s : State) : s.enterHalted.rt.entries[i] =
    if s.rt.entries[i].waits then s.rt.entries[i].completed .refusedHalted else s.rt.entries[i] := by
  obtain ⟨hwaits, hcompleted, hsame⟩ := State.foldl_discardRecord_entry s.discards i s.queueHalted
  simp only [State.enterHalted_eq, State.completeWaiting, mapAll_getElem, hwaits, hcompleted]
  cases h : s.rt.entries[i].waits with
  | true => exact (if_pos h).trans (if_pos rfl).symm
  | false =>
    have hunordered : s.rt.entries[i].state ≠ .ordered := fun hordered => by
      rw [TrackerEntry.waits, hordered] at h
      cases h
    exact (if_neg (ne_true_of_eq_false h)).trans ((hsame hunordered).trans (if_neg Bool.false_ne_true).symm)

/-- R76: the completions join the list in allocation order. -/
theorem State.enterHalted_completion (s : State) : s.enterHalted.rt.completion =
    s.rt.completion ++ s.rt.order.filter fun i => s.rt.entries[i].waits := by
  have hcompletion : (s.discards.foldl State.discardRecord s.queueHalted).rt.completion = s.rt.completion :=
    State.foldl_discardRecord (fun s => s.rt.completion) (by simp) _ _
  have horder : (s.discards.foldl State.discardRecord s.queueHalted).rt.order = s.rt.order :=
    State.foldl_discardRecord (fun s => s.rt.order) (by simp) _ _
  have hwaits (i : Fin 24) : (s.discards.foldl State.discardRecord s.queueHalted).rt.entries[i].waits =
      s.rt.entries[i].waits := (State.foldl_discardRecord_entry s.discards i s.queueHalted).1
  simp only [State.enterHalted_eq, State.completeWaiting, hcompletion, horder, hwaits]

/-! ## The timers (R96) -/

/-- R52, R96: the head's timer runs only for a head in BACKOFF, which is discarded. -/
theorem State.EngineSound.queueHalted_headTimer {s : State} (h : s.EngineSound) :
    s.queueHalted.lbe.headTimer = none := by
  simp only [State.queueHalted]
  split
  next => rfl
  next hnone =>
    refine Option.not_isSome_iff_eq_none.mp fun hruns => hnone ?_
    obtain ⟨r, rest, hq, hbackoff⟩ := h.headTimer.mp hruns
    exact List.any_eq_true.mpr ⟨r, by rw [hq]; exact List.mem_cons_self, by rw [hbackoff]; rfl⟩

/-- R76, R96: the timer of an entry runs only for an entry in BACKOFF, which completes. -/
theorem State.EngineSound.entryTimer_stops {s : State} (h : s.EngineSound) (i : Fin 24) :
    (if (s.discards.foldl State.discardRecord s.queueHalted).rt.entries[i].state = .backoff then none
      else s.lbe.entryTimers[i]) = none := by
  split
  next => rfl
  next hnot =>
    refine Option.not_isSome_iff_eq_none.mp fun hruns => hnot ?_
    have hbackoff : s.rt.entries[i].state = .backoff := (h.entryTimer i).mp hruns
    obtain ⟨_, _, hsame⟩ := State.foldl_discardRecord_entry s.discards i s.queueHalted
    have hkept : (s.discards.foldl State.discardRecord s.queueHalted).rt.entries[i] = s.rt.entries[i] :=
      hsame fun hordered => absurd (hbackoff.symm.trans hordered) (by decide)
    rw [hkept, hbackoff]

/-- R52, R76, R96: the entry to HALTED stops every backoff timer, and leaves the rest of the engine. -/
theorem State.EngineSound.enterHalted_lbe {s : State} (h : s.EngineSound) :
    s.enterHalted.lbe = { s.lbe with headTimer := none, entryTimers := Vector.replicate 24 none } := by
  have hlbe : (s.discards.foldl State.discardRecord s.queueHalted).lbe = s.queueHalted.lbe :=
    State.foldl_discardRecord (fun s => s.lbe) (by simp) _ _
  have htimers : s.enterHalted.lbe.entryTimers = Vector.replicate 24 none := by
    refine Vector.ext fun i hi => ?_
    simp only [State.enterHalted_eq, State.completeWaiting, Vector.getElem_ofFn, Vector.getElem_replicate, hlbe]
    exact h.entryTimer_stops ⟨i, hi⟩
  have hhead : s.enterHalted.lbe = { s.queueHalted.lbe with entryTimers := s.enterHalted.lbe.entryTimers } := by
    simp only [State.enterHalted_eq, State.completeWaiting, hlbe]
  rw [hhead, htimers, ← h.queueHalted_headTimer]
  rfl

/-! ## The drain (R30, R31, R34) -/

/-- R34: the discarded records of an older generation. -/
theorem State.discards_older (s : State) : (s.discards.filter fun r => r.generation != s.wd.generation).length =
    (s.pwq.filter fun r => r.state != .active && r.generation != s.wd.generation).length := by
  simp only [State.discards, List.filter_filter, Bool.and_comm]

/-- R34: of the entry to HALTED the drain and the slots see the discards alone. -/
theorem State.enterHalted_drain (s : State) :
    s.enterHalted.wd = (s.discards.foldl State.discardRecord s.queueHalted).wd ∧
    s.enterHalted.mu = (s.discards.foldl State.discardRecord s.queueHalted).mu := by
  simp only [State.enterHalted_eq, State.completeWaiting_frame, and_self]

/-- The Management Unit but for the slots and the replies. -/
theorem State.enterHalted_mu (s : State) : s.enterHalted.mu = { s.mu with
    port := .halted, slots := s.enterHalted.mu.slots, replies := s.enterHalted.mu.replies } := by
  have hfields (m : ManagementUnit) : m = ⟨m.slots, m.arrivals, m.replies, m.resetPending, m.accessTimeout,
    m.retryLimit, m.retryBackoff, m.fairness, m.haltOnFatal, m.managers, m.portEnable, m.portBase, m.port⟩ := rfl
  refine (hfields s.enterHalted.mu).trans ?_
  simp only [State.enterHalted_frame, State.enterHalted_mu_port]

/-- Settles O57: the discards, the completions, the timers and the drain, each by its lemma. -/
theorem haltDiscardsAndRefuses : Obligations.HaltDiscardsAndRefuses := by
  refine ⟨fun e => by simp [TrackerEntry.waits, or_assoc], ?_⟩
  intro s hsound t discarded older halted
  have holder : (s.discards.filter fun r => r.generation != s.queueHalted.wd.generation).length = older :=
    s.discards_older
  obtain ⟨hecu, hdiscarded⟩ := s.enterHalted_discarded
  obtain ⟨hwd, hmu⟩ := s.enterHalted_drain
  obtain ⟨hidle, hdraining⟩ := State.foldl_discardRecord_drain s.discards s.queueHalted
  obtain ⟨hnq, hanswer, hpending, hcounter, horder, hstaging, hactive, hgeneration, _⟩ := s.enterHalted_frame
  rw [← hwd, ← hmu] at hidle
  rw [← hwd, ← hmu, holder] at hdraining
  refine ⟨s.enterHalted_mu_port, s.enterHalted_pwq, hecu, hdiscarded, fun hup => ?_, fun hdown => ?_, fun i hi => ?_,
    fun i hi => ?_, s.enterHalted_completion, horder, hcounter, hnq, hanswer, hsound.engine.enterHalted_lbe,
    s.enterHalted_mu, hstaging, hactive, hgeneration, hidle, fun hd => ?_, hpending⟩
  · exact s.enterHalted_link.trans (if_pos hup)
  · exact s.enterHalted_link.trans (if_neg (by rw [hdown]; decide))
  · exact (s.enterHalted_entry i).trans (if_pos hi)
  · exact (s.enterHalted_entry i).trans (if_neg (ne_true_of_eq_false hi))
  · obtain ⟨hgoesOn, hends⟩ := hdraining hd
    refine ⟨hgoesOn, fun hsome hall => ?_⟩
    obtain ⟨hwdEnds, hmuEnds⟩ := hends hsome hall
    refine ⟨hwdEnds, fun hnone => ?_, fun k r hdrains hheld hkind haddress => ?_⟩
    · exact hmuEnds.trans (congrArg State.mu (State.placeDone_none (s := s.queueHalted) hnone))
    · have hcommit : s.mu.slots[k].holdsCommit = true :=
        (Slot.holdsCommit_iff _).mpr ⟨r, hheld, hkind, haddress⟩
      rw [← generationReply_eq]
      exact hmuEnds.trans (congrArg State.mu (State.placeDone_held (s := s.queueHalted) hheld hcommit hdrains.2))

end Sys2Proof.Machine
end

section
/-! PROOF. With FATAL held and halt-on-fatal enabled the port is HALTED (R149). A report that records a FATAL error,
and a write that enables halt-on-fatal, halt the port in the same step (R152, R153); OPEN and CLOSE move it only where
the law asks nothing; and a session end and a part reset leave a port HALTED that has to be. -/

namespace Sys2Proof.Machine

/-! ## The law that every command keeps -/

theorem State.PortGuarded.of_halted {s : State} (h : s.mu.port = .halted) : s.PortGuarded := fun _ _ => h

/-- The worst severity and the setting stay, and a HALTED port stays HALTED. -/
theorem State.PortGuarded.of_staysHalted {s t : State} (h : s.PortGuarded) (hworst : t.ecu.worst = s.ecu.worst)
    (hsetting : t.mu.haltOnFatal = s.mu.haltOnFatal) (hport : s.mu.port = .halted → t.mu.port = .halted) :
    t.PortGuarded := fun hw hs => hport (h (hworst ▸ hw) (hsetting ▸ hs))

/-- The law reads the worst severity, the setting and the port state alone. -/
theorem State.PortGuarded.of_frame {s t : State} (h : s.PortGuarded)
    (hf : t.ecu.worst = s.ecu.worst ∧ t.mu.haltOnFatal = s.mu.haltOnFatal ∧ t.mu.port = s.mu.port) : t.PortGuarded := by
  obtain ⟨hworst, hsetting, hport⟩ := hf
  exact h.of_staysHalted hworst hsetting fun hs => hport.trans hs

/-! ## Reports, session ends and resets (R118, R152, R154, R157) -/

/-- R152: after the halt that a FATAL error asks for nothing is left to guard. -/
theorem State.fatalRecorded_portGuarded (s : State) : s.fatalRecorded.PortGuarded := by
  unfold State.fatalRecorded
  split
  next => exact .of_halted s.enterHalted_mu_port
  next hnot => exact fun _ hsetting => by_contra fun hport => hnot ⟨hsetting, hport⟩

/-- R118: the worst severity becomes that of the report, or stays. -/
theorem ErrorCapture.recorded_worst (u : ErrorCapture) (v : Severity) (r : Report) :
    (u.recorded v r).1.worst = some v ∨ (u.recorded v r).1.worst = u.worst := by
  unfold ErrorCapture.recorded
  split
  · exact .inl rfl
  · split
    · exact .inl rfl
    · exact .inr rfl

theorem State.PortGuarded.report {s : State} (h : s.PortGuarded) (r : Report) : (s.report r).PortGuarded := by
  cases hmask : s.ecu.mask.getLsbD r.kind.number with
  | true => rwa [State.report_masked hmask]
  | false =>
    rw [State.report_unmasked hmask]
    split
    next => exact State.fatalRecorded_portGuarded _
    next hlower =>
      intro hfatal hsetting
      rcases s.ecu.recorded_worst (s.ecu.severityOf r.kind) r with hworst | hworst
      · exact absurd (Option.some.inj (hworst.symm.trans hfatal)) hlower
      · exact h (hworst.symm.trans hfatal) hsetting

/-- R154: a session end closes an OPEN port alone. -/
theorem ManagementUnit.sessionEnded_of_halted {m : ManagementUnit} (h : m.port = .halted) :
    m.sessionEnded.port = .halted := by
  simp only [sessionEnded, h]
  rfl

theorem State.PortGuarded.endSession {s : State} (h : s.PortGuarded) : s.endSession.PortGuarded := by
  refine h.of_staysHalted (by simp) (by simp) fun hport => ?_
  unfold State.endSession
  split
  · exact hport
  · rw [State.foldl_countOut (fun s => s.mu.port) (by simp)]
    exact ManagementUnit.sessionEnded_of_halted hport

/-- R157: the port is HALTED when the worst severity kept is FATAL. -/
theorem State.partReset_portGuarded (s : State) : s.partReset.PortGuarded := fun hworst _ => if_pos hworst

/-! ## Received packets -/

theorem State.PortGuarded.placeReply {s : State} (h : s.PortGuarded) (k : Fin 2) (m : MgmtReply) :
    (s.placeReply k m).PortGuarded := h.of_frame (by simp)

theorem State.PortGuarded.release {s : State} (h : s.PortGuarded) (p : Pool) : (s.release p).PortGuarded :=
  h.of_frame (by simp)

theorem State.PortGuarded.consume {s : State} (h : s.PortGuarded) (p : Pool) : (s.consume p).PortGuarded :=
  h.of_frame (by simp)

theorem State.PortGuarded.reportRefusal {s : State} (h : s.PortGuarded) (posted : Bool) (q : DataRequest)
    (g : BitVec 8) (o : DecodeOutcome) : (s.reportRefusal posted q g o).PortGuarded := by
  unfold State.reportRefusal
  split
  · exact h.report _
  · exact h

theorem State.PortGuarded.discardWrite {s : State} (h : s.PortGuarded) (q : DataRequest) (o : DecodeOutcome) :
    (s.discardWrite q o).PortGuarded := by
  cases o with
  | halted => exact h.of_frame (by simp [State.discardWrite])
  | accepted p o => exact h
  | _ =>
    simp only [State.discardWrite]
    exact (h.release .posted).reportRefusal _ _ _ _

theorem State.PortGuarded.takePosted {s : State} (h : s.PortGuarded) (q : DataRequest) :
    Answers (s.takePosted q) State.PortGuarded := by
  cases hd : decode s.mu.port s.wd.active q with
  | accepted p o =>
    simp only [State.takePosted, hd, State.appendRecord]
    split
    · exact (answers_next _ _).mpr h
    · exact answers_fault _ _
  | _ =>
    rw [State.takePosted_refused hd rfl, answers_next]
    exact h.discardWrite _ _

theorem State.PortGuarded.takeNonPosted {s : State} (h : s.PortGuarded) (q : DataRequest) (p : Fin 24) :
    Answers (s.takeNonPosted q p) State.PortGuarded := by
  unfold State.takeNonPosted
  split
  · exact (answers_next _ _).mpr ((h.release .nonPosted).report _)
  · split
    · exact answers_fault _ _
    next i _ =>
      have hallocated (o : DecodeOutcome) : (s.allocate i q o).PortGuarded := h.of_frame (by simp)
      exact (answers_next _ _).mpr ((hallocated _).reportRefusal _ _ _ _)

theorem State.PortGuarded.takeManagement {s : State} (h : s.PortGuarded) (r : MgmtRequest) :
    Answers (s.takeManagement r) State.PortGuarded := by
  unfold State.takeManagement
  split
  · split
    · exact answers_fault _ _
    · exact (answers_next _ _).mpr h
  · exact (answers_next _ _).mpr h

theorem State.PortGuarded.route {s : State} (hs : s.PortGuarded) (k : DownstreamKind) (h : Header)
    (data : List Word) (p : Fin 24) : Answers (s.route k h data p) State.PortGuarded := by
  match k with
  | .data .writePosted => exact hs.takePosted _
  | .data .writeConfirmed => exact hs.takeNonPosted _ _
  | .data .read => exact hs.takeNonPosted _ _
  | .mgmt _ => exact hs.takeManagement _

theorem State.PortGuarded.chargePacket {s : State} (hs : s.PortGuarded) (k : DownstreamKind) (h : Header)
    (data : List Word) (p : Fin 24) : Answers (s.chargePacket k h data p) State.PortGuarded := by
  unfold State.chargePacket
  split
  · exact (answers_next _ _).mpr (hs.report _)
  · split
    · exact (hs.consume _).route _ _ _ _
    · exact (answers_next _ _).mpr (((hs.consume _).release _).report _)

theorem State.PortGuarded.execDownstreamPacket {s : State} (h : s.PortGuarded) (words : List Word) (p : Fin 24) :
    Answers (execDownstreamPacket words p s) State.PortGuarded := by
  unfold Machine.execDownstreamPacket State.takePacket
  split
  · exact (answers_next _ _).mpr h
  · split
    · exact (answers_next _ _).mpr (h.report _).endSession
    · split
      · exact (answers_next _ _).mpr (h.report _)
      · exact h.chargePacket _ _ _ _

/-! ## The local bus -/

/-- R48, R100: the handing-back may end a drain, and leaves the port and the settings. -/
theorem State.PortGuarded.handBack {s : State} (h : s.PortGuarded) (st : Status) : (s.handBack st).PortGuarded := by
  refine h.of_frame ⟨by simp, ?_⟩
  unfold State.handBack State.retireHead State.finishEntry
  (repeat' split) <;> simp

theorem State.PortGuarded.endOk {s : State} (h : s.PortGuarded) : s.endOk.PortGuarded :=
  State.PortGuarded.handBack (s := s.releaseBus) h .ok

theorem State.PortGuarded.endFailed {s : State} (h : s.PortGuarded) (f : Failure) : (s.endFailed f).PortGuarded := by
  have hended : (s.releaseBus.handBack f.status).clearCurrent.PortGuarded :=
    State.PortGuarded.handBack (s := s.releaseBus) h f.status
  unfold State.endFailed State.reportOption
  split
  · exact hended.report _
  · exact hended

theorem State.PortGuarded.takeAck {s : State} (h : s.PortGuarded) (it : Item) (lanes : Word) (parity : Nibble) :
    (s.takeAck it lanes parity).PortGuarded := by
  have hack : (s.acknowledge it lanes parity).PortGuarded := h.of_frame (by simp)
  unfold State.takeAck State.endLastWord
  split
  · exact hack.of_frame (by simp)
  · split
    · exact hack.endFailed _
    · exact hack.endOk

/-- R44, R53, R68, R77: the store of the item reads the port state and does not change it. -/
theorem State.PortGuarded.retryWithin {s : State} (h : s.PortGuarded) : s.retryWithin.PortGuarded := by
  refine h.of_frame ?_
  unfold State.retryWithin State.retryHead State.retryEntry
  (repeat' split) <;> simp

theorem State.PortGuarded.takeRetry {s : State} (h : s.PortGuarded) (it : Item) : (s.takeRetry it).PortGuarded := by
  unfold State.takeRetry
  split
  · exact h.endFailed _
  · exact State.PortGuarded.retryWithin (s := s.releaseBus) h

/-! ## Management requests -/

/-- R141, R144: a management command keeps the law where its own effect does. -/
theorem State.PortGuarded.executeIf {s : State} (h : s.PortGuarded) {sel : MgmtRequest → Bool}
    {body : Fin 2 → MgmtRequest → State → State} (hbody : ∀ k r, (body k r s).PortGuarded) :
    Answers (.next (s.executeIf sel body)) State.PortGuarded :=
  (answers_next _ _).mpr (State.executeIf_induct h (fun k r => (h.report (deniedReport r)).placeReply k _) hbody)

/-- R150, R151: a port that is not HALTED is not the one the law speaks of, so it may move. -/
theorem State.PortGuarded.setPort {s : State} (h : s.PortGuarded) (hport : s.mu.port ≠ .halted) (p : PortState) :
    (s.setPort p).PortGuarded := fun hworst hsetting => absurd (h hworst hsetting) hport

/-- R150: from HALTED, OPEN is refused while FATAL is held and halt-on-fatal is enabled. -/
theorem State.PortGuarded.performOpen {s : State} (h : s.PortGuarded) (k : Fin 2) (r : MgmtRequest) :
    (s.performOpen k r).PortGuarded := by
  unfold State.performOpen
  split
  next hport => exact (h.setPort (by rw [hport]; decide) .opened).placeReply k _
  next => exact h.placeReply k _
  next =>
    split
    next => exact h.placeReply k _
    next hclear =>
      have hopened : (s.setPort .opened).PortGuarded := fun hworst hsetting => absurd ⟨hworst, hsetting⟩ hclear
      exact hopened.placeReply k _

theorem State.PortGuarded.performClose {s : State} (h : s.PortGuarded) (k : Fin 2) (r : MgmtRequest) :
    (s.performClose k r).PortGuarded := by
  unfold State.performClose
  split
  next hport => exact (h.setPort (by rw [hport]; decide) .closed).placeReply k _
  all_goals exact h.placeReply k _

/-- R153: either halt-on-fatal was enabled before the write and the law held, or the write's own halt comes. -/
theorem State.PortGuarded.haltIfEnabled_written {s : State} (h : s.PortGuarded) (ws : List (ObjectId × Word)) :
    ((s.writeObjects ws).haltIfEnabled s.mu.haltOnFatal).PortGuarded := by
  obtain ⟨_, hport, hworst⟩ := s.writeObjects_frame ws
  unfold State.haltIfEnabled
  split
  next => exact .of_halted (State.enterHalted_mu_port _)
  next hnot =>
    intro hfatal hsetting
    cases hbefore : s.mu.haltOnFatal with
    | true => exact hport.trans (h (hworst.symm.trans hfatal) hbefore)
    | false => exact by_contra fun hopen => hnot ⟨hbefore, hsetting, hfatal, hopen⟩

theorem State.PortGuarded.performWrite {s : State} (h : s.PortGuarded) (k : Fin 2) (r : MgmtRequest) :
    (s.performWrite k r).PortGuarded := by
  unfold State.performWrite
  split
  · exact h.placeReply k _
  next ws _ => exact (h.haltIfEnabled_written ws).placeReply k _

theorem State.PortGuarded.performCommit {s : State} (h : s.PortGuarded) (k : Fin 2) (r : MgmtRequest) :
    (s.performCommit k r).PortGuarded := by
  have hswapped : s.swapBanks.PortGuarded := h
  unfold State.performCommit
  split
  · exact h.placeReply k _
  · split
    · exact h.placeReply k _
    · split
      · exact hswapped.placeReply k _
      · exact hswapped

/-- R122: after a clear no severity is held. -/
theorem State.PortGuarded.performClearErrors {s : State} (h : s.PortGuarded) (k : Fin 2) (r : MgmtRequest) :
    (s.performClearErrors k r).PortGuarded := by
  unfold State.performClearErrors
  split
  · exact h.placeReply k _
  · split
    · have hcleared : State.PortGuarded { s with ecu := s.ecu.cleared } := nofun
      exact hcleared.placeReply k _
    · exact h.placeReply k _

theorem State.PortGuarded.performResetPart {s : State} (h : s.PortGuarded) (k : Fin 2) (r : MgmtRequest) :
    (s.performResetPart k r).PortGuarded := by
  unfold State.performResetPart
  split
  · exact s.partReset_portGuarded
  all_goals exact h

/-! ## Every command -/

section
variable {s : State}

/-- R93 to R98: an answer, or the local access timer, that ends or advances the transaction in progress. -/
theorem execAnswer_portGuarded (h : s.PortGuarded) :
    (∀ lanes parity, Answers (execAckAnswer lanes parity s) State.PortGuarded) ∧
    Answers (execRetryAnswer s) State.PortGuarded ∧ Answers (execErrorAnswer s) State.PortGuarded ∧
    Answers (execLocalAccessTimerExpiry s) State.PortGuarded := by
  unfold execAckAnswer execRetryAnswer execErrorAnswer execLocalAccessTimerExpiry
  refine ⟨fun lanes parity => ?_, ?_, ?_, ?_⟩ <;> split <;> rw [answers_next]
  · exact h.takeAck _ lanes parity
  · exact h
  · exact h.takeRetry _
  · exact h
  · exact h.endFailed _
  · exact h
  · exact h.endFailed _
  · exact h

theorem execResetPartTakesEffect_portGuarded (h : s.PortGuarded) :
    Answers (execResetPartTakesEffect s) State.PortGuarded := by
  unfold execResetPartTakesEffect
  split <;> rw [answers_next]
  · exact s.partReset_portGuarded
  all_goals exact h

theorem execLinkUp_portGuarded (h : s.PortGuarded) : Answers (execLinkUp s) State.PortGuarded := by
  unfold execLinkUp
  split <;> exact (answers_next _ _).mpr (h.of_frame (by simp))

theorem execArbitrationDecision_portGuarded (h : s.PortGuarded) :
    Answers (execArbitrationDecision s) State.PortGuarded := by
  unfold execArbitrationDecision
  split <;> exact (answers_next _ _).mpr (h.of_frame (by simp))

theorem execBusGrant_portGuarded (h : s.PortGuarded) : Answers (execBusGrant s) State.PortGuarded := by
  unfold execBusGrant State.beginOwning
  split <;> exact (answers_next _ _).mpr (h.of_frame (by simp))

theorem execBackoffIntervalExpiry_portGuarded (h : s.PortGuarded) (item : BackoffItem) :
    Answers (execBackoffIntervalExpiry item s) State.PortGuarded := by
  unfold execBackoffIntervalExpiry
  (repeat' split) <;> exact (answers_next _ _).mpr (h.of_frame (by simp))

theorem execTransmitChoice_portGuarded (h : s.PortGuarded) : Answers (execTransmitChoice s) State.PortGuarded := by
  unfold execTransmitChoice State.chooseUpstream State.chooseData
  (repeat' split) <;> exact (answers_next _ _).mpr (h.of_frame (by simp))

theorem execResponseSent_portGuarded (h : s.PortGuarded) : Answers (execResponseSent s) State.PortGuarded := by
  unfold execResponseSent
  split <;> exact (answers_next _ _).mpr (h.of_frame (by simp))

theorem execMgmtReplySent_portGuarded (h : s.PortGuarded) : Answers (execMgmtReplySent s) State.PortGuarded := by
  unfold execMgmtReplySent State.freeSlot
  split <;> exact (answers_next _ _).mpr (h.of_frame (by simp))

theorem execUpstreamTransmissionEnds_portGuarded (h : s.PortGuarded) :
    Answers (execUpstreamTransmissionEnds s) State.PortGuarded := by
  unfold execUpstreamTransmissionEnds
  split <;> exact (answers_next _ _).mpr (h.of_frame (by simp))

theorem execNoticePortWrite_portGuarded (h : s.PortGuarded) (address : Word) (enables : Nibble) (lanes : Word)
    (parity : Nibble) : Answers (execNoticePortWrite address enables lanes parity s) State.PortGuarded := by
  unfold execNoticePortWrite State.writeWordZero
  (repeat' split) <;> exact (answers_next _ _).mpr h

theorem execNoticePortRead_portGuarded (h : s.PortGuarded) (address : Word) :
    Answers (execNoticePortRead address s) State.PortGuarded := by
  unfold execNoticePortRead
  (repeat' split) <;> exact (answers_next _ _).mpr h

/-- R149: each command keeps the law, by the lemma of its own effect. -/
theorem exec_portGuarded (c : Instr) (h : s.PortGuarded) : Answers (exec c s) State.PortGuarded := by
  obtain ⟨hack, hretry, herror, htimeout⟩ := execAnswer_portGuarded h
  cases c with
  | powerOnReset => exact (answers_next _ _).mpr nofun
  | linkUp => exact execLinkUp_portGuarded h
  | lossOfLinkSignal => exact (answers_next _ _).mpr h.endSession
  | downstreamPacket words p => exact h.execDownstreamPacket words p
  | mgmtRead => exact h.executeIf fun k _ => h.placeReply k _
  | mgmtWrite => exact h.executeIf h.performWrite
  | haltOnFatalEnable => exact h.executeIf h.performWrite
  | openPort => exact h.executeIf h.performOpen
  | closePort => exact h.executeIf h.performClose
  | commit => exact h.executeIf h.performCommit
  | discardStaging => exact h.executeIf fun _ _ => h
  | clearErrors => exact h.executeIf h.performClearErrors
  | resetPart => exact h.executeIf h.performResetPart
  | unknownCommandCode => exact h.executeIf fun k _ => h.placeReply k _
  | resetPartTakesEffect => exact execResetPartTakesEffect_portGuarded h
  | arbitrationDecision => exact execArbitrationDecision_portGuarded h
  | busGrant => exact execBusGrant_portGuarded h
  | ackAnswer lanes parity => exact hack lanes parity
  | retryAnswer => exact hretry
  | errorAnswer => exact herror
  | localAccessTimerExpiry => exact htimeout
  | backoffIntervalExpiry item => exact execBackoffIntervalExpiry_portGuarded h item
  | transmitChoice => exact execTransmitChoice_portGuarded h
  | responseSent => exact execResponseSent_portGuarded h
  | mgmtReplySent => exact execMgmtReplySent_portGuarded h
  | noticePortWrite address enables lanes parity => exact execNoticePortWrite_portGuarded h address enables lanes parity
  | noticePortRead address => exact execNoticePortRead_portGuarded h address
  | upstreamTransmissionEnds => exact execUpstreamTransmissionEnds_portGuarded h

end

theorem step_portGuarded {s t : State} (hs : s.PortGuarded) (h : step s = .next t) : t.PortGuarded := by
  unfold step at h
  split at h
  · cases h
    exact hs
  next c rest _ => exact exec_portGuarded (s := s.withPending rest) c hs t h

/-- Settles O9: every step keeps the law, and a port that is HALTED is not OPEN. -/
theorem portStaysGuarded : Obligations.PortStaysGuarded := by
  intro s t hs h
  have ht : t.PortGuarded := step_portGuarded hs h
  refine ⟨ht, fun ⟨hopened, hworst, hsetting⟩ => ?_⟩
  exact absurd (hopened.symm.trans (ht hworst hsetting)) (by decide)

end Sys2Proof.Machine
end

section
/-! PROOF. Link sessions: how one begins (R160, R170) and what its end does to every block (R158, R159, Table 9-1), at a
loss of signal or after a damaged packet (R162). -/

namespace Sys2Proof.Machine

/-! ## Resources in use (Table 9-6) -/

/-- A count over a vector is a count over its indices. -/
theorem countP_toList_eq {α : Type} {n : Nat} (p : α → Bool) (v : Vector α n) :
    v.toList.countP p = ((List.finRange n).filter fun i => p v[i]).length := by
  have hlist : v.toList = (List.finRange n).map fun i => v[i] := by
    refine List.ext_getElem (by simp) fun i _ _ => ?_
    simp
  rw [hlist, List.countP_map, List.countP_eq_length_filter]
  rfl

theorem Slot.occupied_eq (q : Slot) : q.occupied = (q != .free) := by
  cases q <;> rfl

/-! ## LINK_UP (R160, R170) -/

/-- Settles O15: the returns awaiting that the session begins with are the free counts, and its CREDIT packet takes them
all. -/
theorem linkUpGrantsFreeCounts : Obligations.LinkUpGrantsFreeCounts := by
  refine ⟨rfl, fun s => ⟨rfl, rfl, rfl, countP_toList_eq _ _, ?_, fun hdown => ?_, fun hup => ?_⟩⟩
  · rw [State.occupiedSlots, countP_toList_eq]
    simp only [Slot.occupied_eq]
  · change exec .linkUp s = .next s.sessionLoaded.beginCredit
    simp only [exec, execLinkUp, hdown]
  · simp only [exec, execLinkUp, hup]

/-! ## The drain at a session end (R30, R33) -/

/-- R30: the Window Decoder after an item of generation `g` is counted out, the reply of R31 left aside. -/
def WindowDecoder.countedOut (w : WindowDecoder) (g : BitVec 8) : WindowDecoder :=
  if w.commit = .draining ∧ g ≠ w.generation then
    if w.drain ≤ 1 then { w with drain := 0, commit := .idle } else { w with drain := w.drain - 1 }
  else w

/-- R33: with no slot that holds a COMMIT, counting out changes the Window Decoder alone. -/
theorem State.countOut_unheld {s : State} (h : ∀ k : Fin 2, s.mu.slots[k].holdsCommit = false) (g : BitVec 8) :
    s.countOut g = { s with wd := s.wd.countedOut g } := by
  unfold State.countOut WindowDecoder.countedOut
  split
  · split
    · exact State.placeDone_none h
    · rfl
  · rfl

/-- R33: the retirements of a session end, one after another. -/
theorem State.foldl_countOut_unheld {s : State} (h : ∀ k : Fin 2, s.mu.slots[k].holdsCommit = false)
    (gs : List (BitVec 8)) : gs.foldl (fun t g => State.countOut g t) s =
      { s with wd := gs.foldl WindowDecoder.countedOut s.wd } := by
  induction gs generalizing s with
  | nil => rfl
  | cons g gs ih =>
    rw [List.foldl_cons, State.countOut_unheld h, ih (s := { s with wd := s.wd.countedOut g }) h]
    rfl

theorem WindowDecoder.countedOut_frame (w : WindowDecoder) (g : BitVec 8) :
    (w.countedOut g).staging = w.staging ∧ (w.countedOut g).active = w.active ∧
    (w.countedOut g).generation = w.generation := by
  unfold countedOut
  (repeat' split) <;> and_intros <;> rfl

theorem WindowDecoder.foldl_countedOut_frame (w : WindowDecoder) (gs : List (BitVec 8)) :
    (gs.foldl countedOut w).staging = w.staging ∧ (gs.foldl countedOut w).active = w.active ∧
    (gs.foldl countedOut w).generation = w.generation := by
  induction gs generalizing w with
  | nil => exact ⟨rfl, rfl, rfl⟩
  | cons g gs ih => simpa only [List.foldl_cons, countedOut_frame] using ih (w.countedOut g)

/-- R30: while no drain is in progress nothing is counted. -/
theorem WindowDecoder.foldl_countedOut_idle {w : WindowDecoder} (h : w.commit = .idle) (gs : List (BitVec 8)) :
    gs.foldl countedOut w = w := by
  have hstep (g : BitVec 8) : w.countedOut g = w := if_neg fun hg => absurd (h.symm.trans hg.1) (by decide)
  induction gs with
  | nil => rfl
  | cons g gs ih => rw [List.foldl_cons, hstep, ih]

/-- R30: in a drain the items of the older generation are counted, and the drain ends with its last one. -/
theorem WindowDecoder.foldl_countedOut_draining {w : WindowDecoder} (h : w.commit = .draining) (gs : List (BitVec 8)) :
    ((gs.filter (· != w.generation)).length < w.drain →
      gs.foldl countedOut w = { w with drain := w.drain - (gs.filter (· != w.generation)).length }) ∧
    (1 ≤ w.drain → (gs.filter (· != w.generation)).length = w.drain →
      gs.foldl countedOut w = { w with drain := 0, commit := .idle }) := by
  induction gs generalizing w with
  | nil => exact ⟨fun _ => rfl, fun hsome hnone => absurd hnone (Nat.ne_of_lt hsome)⟩
  | cons g gs ih =>
    rw [List.foldl_cons]
    by_cases hg : g = w.generation
    · have hstep : w.countedOut g = w := if_neg fun hne => hne.2 hg
      rw [hstep, List.filter_cons_of_neg (by simp [hg])]
      exact ih h
    rw [List.filter_cons_of_pos (by simp [hg]), List.length_cons]
    by_cases hlast : w.drain ≤ 1
    · have hstep : w.countedOut g = { w with drain := 0, commit := .idle } := by
        rw [countedOut, if_pos ⟨h, hg⟩, if_pos hlast]
      refine ⟨fun hfewer => absurd hfewer (by omega), fun _ _ => ?_⟩
      rw [hstep, foldl_countedOut_idle rfl]
    · have hstep : w.countedOut g = { w with drain := w.drain - 1 } := by
        rw [countedOut, if_pos ⟨h, hg⟩, if_neg hlast]
      obtain ⟨hfewer, hall⟩ := ih (w := { w with drain := w.drain - 1 }) h
      rw [hstep]
      refine ⟨fun hlt => ?_, fun hsome heq => hall (by dsimp only; omega) (by dsimp only; omega)⟩
      rw [hfewer (by dsimp only; omega)]
      dsimp only
      rw [Nat.sub_sub, Nat.add_comm]

/-! ## The end of a session (R158, R159) -/

/-- R78: the entries that a session end frees, in allocation order. -/
def State.freedAtEnd (s : State) : List (Fin 24) := s.rt.order.filter fun i => s.rt.entries[i].freedAtSessionEnd

/-- R158. -/
theorem State.endSession_down {s : State} (h : s.link.state = .down) : s.endSession = s := by
  simp only [State.endSession, h]

/-- R159, Table 9-1: the whole of a session end; with the slots empty it places no reply (R33). -/
theorem State.endSession_up {s : State} (h : s.link.state = .up) : s.endSession = { s with
    link := s.link.ended
    wd := (s.freedAtEnd.map fun i => s.rt.entries[i].generation).foldl WindowDecoder.countedOut s.wd
    rt := { s.rt with
      entries := mapAll TrackerEntry.sessionEnded s.rt.entries
      order := s.rt.order.filter fun i => !s.rt.entries[i].freedAtSessionEnd
      completion := [] }
    lbe := { s.lbe with entryTimers := Vector.ofFn fun i : Fin 24 =>
      if s.rt.entries[i].state = .backoff then none else s.lbe.entryTimers[i] }
    nq := []
    mu := s.mu.sessionEnded } := by
  have hslots (k : Fin 2) : s.mu.sessionEnded.slots[k].holdsCommit = false :=
    congrArg Slot.holdsCommit (Vector.getElem_replicate k.isLt)
  simp only [State.endSession, h]
  exact State.foldl_countOut_unheld hslots _

/-- R78: an ACTIVE entry becomes an orphan. -/
theorem TrackerEntry.sessionEnded_active {e : TrackerEntry} (h : e.state = .active) :
    e.sessionEnded = { e with orphan := true } := by
  rw [sessionEnded, if_neg (by simp [freedAtSessionEnd, h]), if_pos h]

/-- R78, R56: any other entry is FREE, as it was before or by the session end. -/
theorem TrackerEntry.sessionEnded_inactive {e : TrackerEntry} {occupancy : Nat} (hs : e.Sound occupancy)
    (h : e.state ≠ .active) :
    e.sessionEnded.state = .free ∧ e.sessionEnded.writesAhead = 0 ∧ e.sessionEnded.orphan = false := by
  unfold sessionEnded
  split
  · exact ⟨rfl, rfl, rfl⟩
  next hfreed =>
    have hfree : e.state = .free := by simpa [freedAtSessionEnd, h] using hfreed
    refine ⟨hfree, of_not_not fun hcount => ?_, eq_false_of_ne_true fun horphan => h (hs.orphanActive horphan)⟩
    exact absurd (hfree.symm.trans (hs.orderedCount.mpr hcount)) (by decide)

/-- R58, R78: of the entries in use a session end keeps the ACTIVE ones. -/
theorem State.TrackerSound.freedAtSessionEnd {s : State} (h : s.TrackerSound) {i : Fin 24} (hi : i ∈ s.rt.order) :
    s.rt.entries[i].freedAtSessionEnd = (s.rt.entries[i].state != .active) := by
  have hinUse : (s.rt.entries[i].state != .free) = true := (h.orderMem i).mp hi
  rw [TrackerEntry.freedAtSessionEnd, hinUse, Bool.true_and]

/-- R33: the entries of the older generation that a session end frees. -/
theorem State.TrackerSound.older_freed {s : State} (h : s.TrackerSound) :
    ((s.freedAtEnd.map fun i => s.rt.entries[i].generation).filter (· != s.wd.generation)).length =
      (s.rt.order.filter fun i =>
        s.rt.entries[i].state != .active && s.rt.entries[i].generation != s.wd.generation).length := by
  rw [State.freedAtEnd, List.filter_map, List.length_map, List.filter_filter]
  refine congrArg List.length (List.filter_congr fun i hi => ?_)
  rw [h.freedAtSessionEnd hi, Bool.and_comm]
  rfl

/-- Settles O16: the Window Decoder sees the entries that the session end frees, and every other block is as Table 9-1
says. -/
theorem lossOfSignalEndsSession : Obligations.LossOfSignalEndsSession := by
  intro s
  refine ⟨fun hdown => congrArg Host.Outcome.next (State.endSession_down hdown), fun hup hs => ?_⟩
  have holder := hs.older_freed
  obtain ⟨hstaging, hbank, hgeneration⟩ :=
    s.wd.foldl_countedOut_frame (s.freedAtEnd.map fun i => s.rt.entries[i].generation)
  refine ⟨_, congrArg Host.Outcome.next (State.endSession_up hup), rfl, hstaging, hbank, hgeneration,
    fun hidle => WindowDecoder.foldl_countedOut_idle hidle _, fun hdraining => ?_, rfl, rfl, rfl, rfl, rfl, rfl, rfl,
    rfl, ?_, fun i hactive => ?_, fun i hinactive => ?_, rfl, rfl⟩
  · rw [← holder]
    exact WindowDecoder.foldl_countedOut_draining hdraining _
  · refine List.filter_congr fun i hi => ?_
    rw [hs.freedAtSessionEnd hi, bne, Bool.not_not]
  · exact (mapAll_getElem _ _ i).trans (TrackerEntry.sessionEnded_active hactive)
  · dsimp only
    rw [mapAll_getElem]
    exact TrackerEntry.sessionEnded_inactive (hs.entries i) hinactive

/-! ## A damaged packet (R162) -/

/-- R162, R178: words that are read as a packet are a header, data and a matching check. -/
theorem readPacket_received {words : List Word} {h : Header} {data : List Word}
    (hr : readPacket words = some (h, data)) : PacketReceived words h data := by
  unfold readPacket at hr
  split at hr
  next w0 w1 w2 rest =>
    dsimp only at hr
    split at hr
    next hcheck =>
      cases hr
      exact ⟨w0, w1, _, by rw [List.dropLast_concat_getLast], hcheck, rfl⟩
    next => cases hr
  next => cases hr

/-- R162: words that are no sound packet are reported, and the session ends. -/
theorem exec_damagedPacket {words : List Word} (hbad : ¬∃ h data, PacketReceived words h data) (p : Fin 24) {s : State}
    (hup : s.link.state = .up) :
    exec (.downstreamPacket words p) s = .next (s.report linkCheckReport).endSession := by
  have hnone : readPacket words = none :=
    Option.eq_none_iff_forall_not_mem.mpr fun ⟨h, data⟩ hr => hbad ⟨h, data, readPacket_received hr⟩
  simp only [exec, execDownstreamPacket, hup, State.takePacket, hnone]

/-- R154: no port is OPEN after a session end. -/
theorem ManagementUnit.sessionEnded_not_opened (m : ManagementUnit) : m.sessionEnded.port ≠ .opened := by
  simp only [sessionEnded]
  split
  · decide
  next h => exact h

/-- Settles O17: the report keeps the link UP, so the session end after it is that of R159. -/
theorem damagedPacketEndsSession : Obligations.DamagedPacketEndsSession := by
  intro words p s
  refine ⟨fun hdown => ?_, fun hup hbad => ⟨_, exec_damagedPacket hbad p hup, rfl, rfl, ?_⟩⟩
  · simp only [exec, execDownstreamPacket, hdown]
  · have hup' : (s.report linkCheckReport).link.state = .up := by simpa using hup
    rw [State.endSession_up hup']
    exact ⟨rfl, rfl, rfl, rfl, fun q => by cases q <;> rfl, ManagementUnit.sessionEnded_not_opened _⟩

end Sys2Proof.Machine
end

section
/-! PROOF. Packets that are sound in integrity and are discarded and reported (R163, R164, R168): which kind codes are
of downstream kinds, and which packets are well-formed (Tables 9-3, 9-4, 11-2). -/

namespace Sys2Proof.Machine

/-! ## The form conditions (R164, Table 9-4) -/

/-- R164: the conditions on the masks of a data request. -/
theorem masksWellFormed_iff (h : Header) (hlength : 1 ≤ h.length.toNat) : masksWellFormed h = true ↔
    h.firstMask ≠ 0 ∧ (h.length.toNat = 1 → h.lastMask = 0) ∧ (1 < h.length.toNat → h.lastMask ≠ 0) := by
  have hone : h.length = 1 ↔ h.length.toNat = 1 := BitVec.toNat_inj.symm
  rw [masksWellFormed, Bool.and_eq_true, bne_iff_ne]
  refine and_congr_right' ?_
  by_cases hl : h.length.toNat = 1
  · rw [if_pos (hone.mpr hl), beq_iff_eq]
    simp [hl]
  · have hmore : 1 < h.length.toNat := lt_of_le_of_ne hlength (Ne.symm hl)
    rw [if_neg (hone.not.mpr hl), bne_iff_ne]
    simp [hl, hmore]

/-- R164: the number of data words that a data request carries. -/
def DataKind.dataWords (k : DataKind) (h : Header) : Nat := if k = .read then 0 else h.length.toNat

theorem formWellFormed_data (k : DataKind) (h : Header) (data : List Word) : formWellFormed (.data k) h data =
    (decide (1 ≤ h.length.toNat ∧ h.length.toNat ≤ 16) && data.length == k.dataWords h && masksWellFormed h) := by
  cases k with
  | read => cases data <;> rfl
  | writePosted => rfl
  | writeConfirmed => rfl

theorem formWellFormed_data_iff (k : DataKind) (h : Header) (data : List Word) :
    formWellFormed (.data k) h data = true ↔
      1 ≤ h.length.toNat ∧ h.length.toNat ≤ 16 ∧ data.length = k.dataWords h ∧
      h.firstMask ≠ 0 ∧ (h.length.toNat = 1 → h.lastMask = 0) ∧ (1 < h.length.toNat → h.lastMask ≠ 0) := by
  rw [formWellFormed_data, Bool.and_eq_true, Bool.and_eq_true, decide_eq_true_eq, beq_iff_eq, and_assoc, and_assoc]
  refine and_congr_right fun hlength => and_congr_right fun _ => and_congr_right fun _ => ?_
  exact masksWellFormed_iff h hlength

theorem formWellFormed_mgmt_iff (m : MgmtKind) (h : Header) (data : List Word) :
    formWellFormed (.mgmt m) h data = true ↔
      1 ≤ h.length.toNat ∧ h.length.toNat ≤ 8 ∧ (m = .mgmtRead → data.length = 0) ∧
      (m = .mgmtWrite → data.length = h.length.toNat) ∧ (m = .mgmtCommand → data.length ≤ 1) := by
  cases m <;> simp [formWellFormed, and_assoc]

/-! ## Discarded packets (R163, R168) -/

section

variable {words : List Word} {h : Header} {data : List Word} {s : State} {k : DownstreamKind}

/-- R163, step 3: with no grant outstanding the packet is reported and no count changes. -/
theorem PacketReceived.exec_overrun (hp : PacketReceived words h data) (p : Fin 24) (hup : s.link.state = .up)
    (hk : DownstreamKind.ofCode h.kindCode = some k) (hnone : (s.link.pool k.pool).outstanding = 0) :
    Machine.exec (.downstreamPacket words p) s = .next (s.report (headerReport .creditOverrun h data)) := by
  rw [hp.exec p hup, hk]
  exact if_pos hnone

/-- R163, step 4: a packet that breaks a form condition is reported after its grant moves to the returns awaiting. -/
theorem PacketReceived.exec_illFormed (hp : PacketReceived words h data) (p : Fin 24) (hup : s.link.state = .up)
    (hk : DownstreamKind.ofCode h.kindCode = some k) (hgrant : (s.link.pool k.pool).outstanding ≠ 0)
    (hform : formWellFormed k h data = false) : Machine.exec (.downstreamPacket words p) s =
      .next (((s.consume k.pool).release k.pool).report (headerReport .malformed h data)) := by
  rw [hp.exec p hup, hk]
  simp only [State.chargePacket, if_neg hgrant, hform, Bool.false_eq_true, if_false]

end

/-- Settles O18: steps 2 to 4 of R163 in turn, then the codes, the pools and the form conditions. -/
theorem discardedPacketsAreReported : Obligations.DiscardedPacketsAreReported := by
  refine ⟨fun words p s h data hup hp => ⟨fun hk => ?_, fun k hk => ⟨fun hnone => ?_, fun hgrant hform => ?_⟩⟩,
    rfl, by decide, fun l => ⟨rfl, rfl, rfl, fun c => ⟨rfl, rfl, rfl⟩⟩, rfl, rfl, rfl, fun _ => rfl,
    formWellFormed_data_iff, formWellFormed_mgmt_iff⟩
  · rw [hp.exec p hup, hk]
    rfl
  · exact hp.exec_overrun p hup hk hnone
  · rw [hp.exec_illFormed p hup hk hgrant hform, State.consume_release_up k.pool hup]
    rfl

end Sys2Proof.Machine
end

section
/-! PROOF. The words of the upstream packets (Table 11-3, R165, R179), and the choice of the transmit arbiter (R171,
R172). -/

namespace Sys2Proof.Machine

/-! ## Words laid out field by field (Chapter 11) -/

/-- Two fields side by side are placed one by one. -/
theorem place_append {n m : Nat} (lo : Nat) (a : BitVec n) (b : BitVec m) :
    place lo (a ++ b) = place (lo + m) a ||| place lo b := by
  refine BitVec.eq_of_getLsbD_eq fun i hi => ?_
  simp only [place, BitVec.getLsbD_or, BitVec.getLsbD_shiftLeft, BitVec.getLsbD_setWidth, BitVec.getLsbD_append, hi,
    decide_true, Bool.true_and, show i - lo < 32 by omega, show i - (lo + m) < 32 by omega]
  by_cases hlow : i < lo + m
  · have hfield : i < lo ∨ i - lo < m := by omega
    rcases hfield with hout | hin
    · simp [hlow, hout]
    · simp [hlow, hin]
  · have hbit : b.getLsbD (i - lo) = false := BitVec.getLsbD_of_ge _ _ (by omega)
    simp [hlow, hbit, show ¬i < lo by omega, show ¬i - lo < m by omega, Nat.sub_sub]

/-- The bits of no field are zero. -/
theorem place_zero (lo n : Nat) : place lo (0#n) = 0#32 := by
  simp [place]

theorem place_word (w : Word) : place 0 w = w := by
  simp [place]

/-! ## Upstream packets (Table 11-3, R165, R179) -/

/-- R162, R165: the word that ends a packet. -/
theorem withCheck_eq (words : List Word) : withCheck words = words ++ [0#16 ++ crc words] := by
  have hcheck : place 0 (crc words) = 0#16 ++ crc words := by
    rw [← place_word (0#16 ++ crc words), place_append, place_zero, BitVec.zero_or]
  rw [withCheck, hcheck]

/-- Table 11-3: the header word of READ_DATA and WRITE_DONE. -/
theorem responseHeader_eq (code : BitVec 4) (tag : Tag) (st : Status) (count : Nat) :
    place 28 code ||| place 21 tag ||| place 16 st.code ||| placeNat 8 5 count =
      code ++ 0#2 ++ tag ++ 0#1 ++ st.code ++ 0#3 ++ BitVec.ofNat 5 count ++ 0#8 := by
  refine Eq.trans ?_ (place_word _)
  simp only [place_append, place_zero, BitVec.or_zero, placeNat]

/-- Table 11-3: the header word of MGMT_REPLY. -/
theorem replyHeader_eq (tag : Tag) (st : MgmtStatus) (count : Nat) :
    place 28 11#4 ||| place 21 tag ||| place 16 st.code ||| placeNat 8 4 count =
      11#4 ++ 0#2 ++ tag ++ 0#1 ++ st.code ++ 0#4 ++ BitVec.ofNat 4 count ++ 0#8 := by
  refine Eq.trans ?_ (place_word _)
  simp only [place_append, place_zero, BitVec.or_zero, placeNat]

/-- Table 11-3: the header word of NOTICE. -/
theorem noticeHeader_eq (seq : BitVec 8) (isLocal : Bool) :
    place 28 12#4 ||| place 16 seq ||| placeBit 8 isLocal =
      12#4 ++ 0#4 ++ seq ++ 0#7 ++ BitVec.ofBool isLocal ++ 0#8 := by
  refine Eq.trans ?_ (place_word _)
  simp only [place_append, place_zero, BitVec.or_zero, placeBit]

/-- Table 11-3: the header word of CREDIT. -/
theorem creditHeader_eq (posted nonPosted management : Nat) (sessionStart : Bool) :
    place 28 13#4 ||| placeNat 16 6 posted ||| placeNat 8 5 nonPosted ||| placeNat 4 2 management |||
        placeBit 0 sessionStart =
      13#4 ++ 0#6 ++ BitVec.ofNat 6 posted ++ 0#3 ++ BitVec.ofNat 5 nonPosted ++ 0#2 ++ BitVec.ofNat 2 management ++
        0#3 ++ BitVec.ofBool sessionStart := by
  refine Eq.trans ?_ (place_word _)
  simp only [place_append, place_zero, BitVec.or_zero, placeNat, placeBit]

/-- Table 11-6: the payload of an ERROR notice. -/
theorem errorPayload_eq (v : Severity) (k : ErrorKind) (o : CaptureOutcome) (c : BitVec 8) :
    (Notice.error v k o c).payload =
      0#8 ++ c ++ 0#6 ++ o.code ++ BitVec.ofNat 4 k.number.val ++ 0#2 ++ v.code := by
  refine Eq.trans ?_ (place_word _)
  have hreverse (a b c d : Word) : a ||| b ||| c ||| d = d ||| c ||| b ||| a := by ac_rfl
  simp only [place_append, place_zero, BitVec.or_zero, BitVec.zero_or, Notice.payload, placeNat]
  exact hreverse _ _ _ _

/-- Settles O50: each header word field by field, the packet of an entry by its kind, and the codes. -/
theorem upstreamPacketFields : Obligations.UpstreamPacketFields := by
  refine ⟨fun tag st len data _ => ⟨_, rfl, responseHeader_eq 9 tag st _⟩,
    fun tag st n _ => ⟨_, rfl, responseHeader_eq 10 tag st n⟩, fun e st hst => ⟨fun hkind => ?_, fun hkind => ?_⟩,
    fun tag m _ => ⟨_, rfl, replyHeader_eq tag m.status _⟩, fun seq n => ⟨_, rfl, noticeHeader_eq seq n.isLocal⟩,
    fun w => ⟨rfl, rfl⟩, fun v k o c => ⟨rfl, errorPayload_eq v k o c⟩,
    fun a b c start _ _ _ => ⟨_, rfl, creditHeader_eq a b c start⟩, withCheck_eq, rfl, rfl, rfl, rfl, rfl⟩
  · simp only [responsePacket, hkind, hst, Option.getD_some]
  · simp only [responsePacket, hkind, hst, Option.getD_some]

/-! ## The transmit arbiter (R171, R172) -/

section

variable {s : State}

/-- R171: a choice is made while the link is UP and free. -/
theorem exec_transmitChoice_free (hup : s.link.state = .up) (hfree : s.link.tx = none) :
    exec .transmitChoice s = .next s.chooseUpstream := by
  simp only [exec, execTransmitChoice, hup, hfree]

/-- R170: returns stand in some pool. -/
theorem LinkPort.creditStands_iff (l : LinkPort) : l.creditStands = true ↔
    l.posted.awaiting ≠ 0 ∨ l.nonPosted.awaiting ≠ 0 ∨ l.management.awaiting ≠ 0 := by
  simp [creditStands, or_assoc]

/-- R172: the skip count after a choice of a packet that is no notice. -/
theorem State.skipRaised_eq (s : State) : s.skipRaised = { s with link := { s.link with skip := s.skipAfter } } := by
  unfold State.skipRaised State.skipAfter
  by_cases hnq : s.nq = []
  · rw [if_pos (List.isEmpty_iff.mpr hnq), if_pos hnq]
  · rw [if_neg (mt List.isEmpty_iff.mp hnq), if_neg hnq]
    rfl

/-- R171: with no return awaiting and no reply ready the choice is among notices and responses. -/
theorem State.chooseUpstream_data (hcredit : ¬s.link.creditStands = true) (hreplies : s.mu.replies = []) :
    s.chooseUpstream = s.chooseData := by
  rw [State.chooseUpstream, if_neg hcredit, hreplies]

/-- R171: the first notice goes when no response waits, or before the responses at skip count 4. -/
theorem State.chooseData_notice {n : Notice} {more : List Notice} (hnq : s.nq = n :: more)
    (h : s.rt.completion = [] ∨ s.link.skip = 4) : s.chooseData = s.beginNotice n more := by
  unfold State.chooseData
  rw [hnq]
  cases hc : s.rt.completion with
  | nil => rfl
  | cons i rest =>
    have hskip : s.link.skip = 4 := h.resolve_left (by simp [hc])
    exact if_pos hskip

/-- R171: else the first response goes. -/
theorem State.chooseData_response {i : Fin 24} {more : List (Fin 24)} (hc : s.rt.completion = i :: more)
    (h : s.nq = [] ∨ s.link.skip ≠ 4) : s.chooseData = s.skipRaised.beginResponse i := by
  unfold State.chooseData
  rw [hc]
  cases hnq : s.nq with
  | nil =>
    have hskip : s.skipRaised = s := by simp [State.skipRaised, hnq]
    rw [hskip]
  | cons n rest =>
    have hskip : s.link.skip ≠ 4 := h.resolve_left (by simp [hnq])
    exact if_neg hskip

end

/-- Settles O48: the candidates in the order of R171. -/
theorem transmitChoiceFollowsPreference : Obligations.TransmitChoiceFollowsPreference := by
  intro s hup hfree credits
  rw [exec_transmitChoice_free hup hfree]
  have hcredits : s.link.creditStands = true ↔ credits := s.link.creditStands_iff
  have hdata (hnone : ¬credits) (hreplies : s.mu.replies = []) : s.chooseUpstream = s.chooseData :=
    State.chooseUpstream_data (hcredits.not.mpr hnone) hreplies
  refine ⟨fun hsome => ?_, fun k more r m hnone hreplies hslot => ?_, fun n more hnone hreplies hnq hskip => ?_,
    fun i more hnone hreplies hc hskip => ?_, fun hnone hreplies hnq hc => ?_⟩
  · rw [State.chooseUpstream, if_pos (hcredits.mpr hsome), State.skipRaised_eq]
    rfl
  · rw [State.chooseUpstream, if_neg (hcredits.not.mpr hnone), hreplies]
    dsimp only
    rw [State.skipRaised_eq, State.beginReply, hslot]
  · rw [hdata hnone hreplies, State.chooseData_notice hnq hskip]
    rfl
  · rw [hdata hnone hreplies, State.chooseData_response hc hskip, State.skipRaised_eq]
    rfl
  · rw [hdata hnone hreplies, State.chooseData, hnq, hc]

end Sys2Proof.Machine
end

section
/-! PROOF. A write of a read-write object (R146, R180): the object reads back what was written to its fields, every other
object reads as before, and only the fields of read-write objects change. -/

namespace Sys2Proof.Machine

/-! ## Fields put back where they stood (Chapter 11) -/

theorem getLsbD_place {n : Nat} (lo : Nat) (v : BitVec n) {i : Nat} (hi : i < 32) :
    (place lo v).getLsbD i = (decide (lo ≤ i) && v.getLsbD (i - lo)) := by
  simp only [place, BitVec.getLsbD_shiftLeft, BitVec.getLsbD_setWidth, hi, show i - lo < 32 by omega, decide_true,
    Bool.true_and, ← decide_not, not_lt]

/-- A field put back at its place is the word with all other bits zero. -/
theorem place_field (w : Word) (lo len : Nat) : place lo (field w lo len) = w &&& place lo (BitVec.allOnes len) := by
  refine BitVec.eq_of_getLsbD_eq fun i hi => ?_
  simp only [BitVec.getLsbD_and, getLsbD_place _ _ hi, field, BitVec.getLsbD_extractLsb', BitVec.getLsbD_allOnes]
  by_cases hlo : lo ≤ i
  · simp [hlo, Bool.and_comm]
  · simp [hlo]

/-- A field of one bit. -/
theorem placeBit_getLsbD (w : Word) (lo : Nat) :
    placeBit lo (w.getLsbD lo) = w &&& place lo (BitVec.allOnes 1) := by
  have hfield : field w lo 1 = BitVec.ofBool (w.getLsbD lo) := by
    refine BitVec.eq_of_getLsbD_eq fun i hi => ?_
    obtain rfl : i = 0 := by omega
    simp [field]
  rw [placeBit, ← hfield, place_field]

/-! ## Window entries (Table 11-9) -/

theorem LaneSwap.code_ofCode (c : BitVec 2) : (LaneSwap.ofCode c).code = c := by
  revert c
  decide

theorem WindowOrder.bit_ite (b : Bool) : (if b then WindowOrder.relaxed else .strict).bit = b := by
  cases b <;> rfl

/-- Table 11-9: a written word of an entry reads back. -/
theorem WindowEntry.word_written_same (e : WindowEntry) (n : Fin 4) (w : Word) :
    (e.written n w).word n =
      w &&& if n = 0 then 0x000F77F1#32 else if n = 3 then 0x000000FF#32 else 0xFFFFF000#32 := by
  match n with
  | 0 =>
    simp only [written, word, LaneSwap.code_ofCode, WindowOrder.bit_ite, place_field, placeBit_getLsbD,
      ← BitVec.and_or_distrib_left]
    rfl
  | 1 => exact place_field w 12 20
  | 2 => exact place_field w 12 20
  | 3 => exact place_field w 0 8

/-- R23: the other words of the entry stay. -/
theorem WindowEntry.word_written_other (e : WindowEntry) {n m : Fin 4} (h : m ≠ n) (w : Word) :
    (e.written n w).word m = e.word m := by
  match n, m with
  | 0, 1 | 0, 2 | 0, 3 | 1, 0 | 1, 2 | 1, 3 | 2, 0 | 2, 1 | 2, 3 | 3, 0 | 3, 1 | 3, 2 => rfl
  | 0, 0 | 1, 1 | 2, 2 | 3, 3 => exact absurd rfl h

/-! ## The severity map (R110) -/

/-- R110: each code but 3 names a severity, whose code it is. -/
theorem Severity.code_ofCode_getD {c : BitVec 2} (h : c ≠ 3) (old : Severity) : ((ofCode c).getD old).code = c := by
  have hcodes : ∀ c : BitVec 2, c ≠ 3 → c = 0 ∨ c = 1 ∨ c = 2 := by decide
  rcases hcodes c h with rfl | rfl | rfl <;> rfl

/-- R180: a word in range gives each kind the severity of its field. -/
theorem severityMapOf_code {w : Word} (h : ObjectId.severityMap.inRange w = true) (old : Vector Severity 13)
    (i : Fin 13) : (severityMapOf old w)[i].code = field w (2 * i.val) 2 := by
  have hcode : field w (2 * i.val) 2 ≠ 3 := by
    simpa using List.all_eq_true.mp h i (List.mem_finRange i)
  rw [severityMapOf, Fin.getElem_fin, Vector.getElem_ofFn]
  exact Severity.code_ofCode_getD hcode _

/-- Bits of one word taken out mask by mask are those of all the masks together. -/
theorem foldl_or_and {α : Type} (w : Word) (mask : α → Word) (l : List α) (m : Word) :
    l.foldl (fun v i => v ||| (w &&& mask i)) (w &&& m) = w &&& l.foldl (fun v i => v ||| mask i) m :=
  List.foldl_hom (w &&& ·) fun _ _ => BitVec.and_or_distrib_left.symm

/-- Table 11-8 (011H): the map reads back. -/
theorem severityWord_severityMapOf {w : Word} (h : ObjectId.severityMap.inRange w = true) (old : Vector Severity 13) :
    severityWord (severityMapOf old w) = w &&& 0x03FFFFFF#32 := by
  have hzero : (0 : Word) = w &&& 0#32 := BitVec.and_zero.symm
  simp only [severityWord, severityMapOf_code h, place_field]
  rw [hzero, foldl_or_and]
  rfl

/-! ## Objects (Tables 11-8, 11-9) -/

/-- R180: the object written reads back; the bits of no field read as zero. -/
theorem State.readObject_writeObject_same {o : ObjectId} {w : Word} (hwritable : o.writable = true)
    (hrange : o.inRange w = true) (s : State) : (s.writeObject o w).readObject o = w &&& o.fieldMask := by
  cases o with
  | busTiming | policy | noticePort | recordMask | notifyEnables =>
    simp only [readObject, writeObject, place_field, placeBit_getLsbD, ← BitVec.and_or_distrib_left]
    rfl
  | severityMap => exact severityWord_severityMapOf hrange _
  | staging i n =>
    simp only [readObject, writeObject, set_getElem, if_pos]
    exact WindowEntry.word_written_same _ n w
  | _ => cases hwritable

/-- R146: no other object changes. -/
theorem State.readObject_writeObject_other {o o' : ObjectId} (h : o' ≠ o) (w : Word) (s : State) :
    (s.writeObject o w).readObject o' = s.readObject o' := by
  cases o with
  | staging i n =>
    cases o' with
    | staging j m =>
      simp only [readObject, writeObject, set_getElem]
      split
      next hij =>
        subst hij
        exact WindowEntry.word_written_other _ (mt (congrArg (ObjectId.staging j)) h) w
      next => rfl
    | _ => rfl
  | busTiming => cases o' with | busTiming => exact absurd rfl h | _ => rfl
  | policy => cases o' with | policy => exact absurd rfl h | _ => rfl
  | noticePort => cases o' with | noticePort => exact absurd rfl h | _ => rfl
  | recordMask => cases o' with | recordMask => exact absurd rfl h | _ => rfl
  | severityMap => cases o' with | severityMap => exact absurd rfl h | _ => rfl
  | notifyEnables => cases o' with | notifyEnables => exact absurd rfl h | _ => rfl
  | _ => rfl

/-- R146: a write reaches the staging bank, the settings, and the error unit's mask, map and notify enables alone. -/
theorem State.writeObject_eq (s : State) (o : ObjectId) (w : Word) :
    s.writeObject o w = { s with
      wd := { s.wd with staging := (s.writeObject o w).wd.staging }
      ecu := { s.ecu with
        mask := (s.writeObject o w).ecu.mask, severityMap := (s.writeObject o w).ecu.severityMap
        notify := (s.writeObject o w).ecu.notify }
      mu := { s.mu with
        accessTimeout := (s.writeObject o w).mu.accessTimeout, retryLimit := (s.writeObject o w).mu.retryLimit
        retryBackoff := (s.writeObject o w).mu.retryBackoff, fairness := (s.writeObject o w).mu.fairness
        haltOnFatal := (s.writeObject o w).mu.haltOnFatal, managers := (s.writeObject o w).mu.managers
        portEnable := (s.writeObject o w).mu.portEnable, portBase := (s.writeObject o w).mu.portBase } } := by
  cases o <;> rfl

/-- Settles O37: the object written, the other objects, and the frame. -/
theorem objectsReadBack : Obligations.ObjectsReadBack := by
  intro s o w hwritable hrange
  exact ⟨s.readObject_writeObject_same hwritable hrange, fun o' ho' => s.readObject_writeObject_other ho' w,
    s.writeObject_eq o w⟩

end Sys2Proof.Machine
end

section
/-! PROOF. A received packet as header, data words and check (R162, R178): the fields of a downstream header at their bits
(Table 11-1), and the check bit by bit. -/

namespace Sys2Proof.Machine

/-- R162, R178: words are read as a packet exactly when they are two header words, data and their check. -/
theorem readPacket_eq_some_iff (words : List Word) (h : Header) (data : List Word) :
    readPacket words = some (h, data) ↔ PacketReceived words h data :=
  ⟨readPacket_received, PacketReceived.readPacket⟩

/-! ## The header words (Table 11-1) -/

/-- Table 11-1: the first header word as its fields, each at its place. -/
theorem headerWord0_eq (kindCode : BitVec 4) (cls : ReqClass) (tag : Tag) (length : BitVec 5)
    (firstMask lastMask : Nibble) (free : BitVec 8) :
    kindCode ++ cls ++ tag ++ length ++ firstMask ++ lastMask ++ free =
      place 28 kindCode ||| place 26 cls ||| place 21 tag ||| place 16 length ||| place 12 firstMask |||
        place 8 lastMask ||| place 0 free := by
  refine (place_word _).symm.trans ?_
  simp only [place_append]

/-- Table 11-1: the second header word. -/
theorem headerWord1_eq (address : WordAddress) (free : BitVec 2) :
    address ++ free = place 2 address ||| place 0 free :=
  (place_word _).symm.trans (place_append 0 address free)

/-- Table 11-1: each field is read from its bits, whatever the bits of no field hold. -/
theorem Header.read_fields (h : Header) (free0 : BitVec 8) (free1 : BitVec 2) :
    Header.read (h.kindCode ++ h.cls ++ h.tag ++ h.length ++ h.firstMask ++ h.lastMask ++ free0) (h.address ++ free1) =
      h := by
  simp (disch := omega) only [headerWord0_eq, headerWord1_eq, Header.read, field, field_or, field_place_same,
    field_place_apart, BitVec.or_zero, BitVec.zero_or]

/-! ## The check (R162) -/

/-- R162: the bit that leaves the register, against the bit that enters, decides on the polynomial. -/
theorem crcBit_eq (r : BitVec 16) (b : Bool) :
    crcBit r b = if (r.getLsbD 15 ^^ b) = true then (r <<< 1) ^^^ 0x1021#16 else r <<< 1 := by
  rw [crcBit, BitVec.msb_eq_getLsbD_last]
  rfl

/-- R162: the bits of all words enter one after another, each word from bit 31 down to bit 0. -/
theorem crc_eq_foldl (words : List Word) :
    crc words = (words.flatMap fun w => (List.range 32).map fun n => w.getLsbD (31 - n)).foldl crcBit 0xFFFF#16 := by
  rw [List.foldl_flatMap, crc]
  simp only [crcBits_eq_foldl]
  rfl

/-- Settles O51: the reading of the packet, the header's bits, and the check. -/
theorem receivedPacketReadBack : Obligations.ReceivedPacketReadBack := by
  refine ⟨readPacket_eq_some_iff, Header.read_fields, ?_⟩
  intro words enter
  have henter : crcBit = enter := funext₂ crcBit_eq
  rw [crc_eq_foldl, henter]

end Sys2Proof.Machine
end

section
/-! PROOF. A step runs the command at the front of the queue (log entry 1), and what every object reads as right after
power-on reset (Table 11-8). -/

namespace Sys2Proof.Machine

/-- Settles O1: all three are the definition of a step, with the queue at hand. -/
theorem stepTakesFrontCommand : Obligations.StepTakesFrontCommand :=
  ⟨fun _ _ _ => rfl, fun _ _ => rfl, fun s hempty => by simp only [step, hempty]⟩

/-- Table 1-3: every word of a window entry at its reset value is zero. -/
theorem WindowEntry.reset_word (n : Fin 4) : WindowEntry.reset.word n = 0 := by
  revert n
  decide

/-- Settles O14: the banks entry by entry, the fields of an EMPTY record, and the values of the other objects. -/
theorem objectsAtReset : Obligations.ObjectsAtReset := by
  have hbanks (i : Fin 16) (n : Fin 4) :
      State.reset.readObject (.staging i n) = 0 ∧ State.reset.readObject (.active i n) = 0 := by
    obtain ⟨hstaging, hactive⟩ := State.reset_window i
    simp only [State.readObject, hstaging, hactive, WindowEntry.reset_word, and_self]
  refine ⟨?_, ?_, ?_, ?_, ?_, ?_, ?_, ?_, fun _ => rfl, ?_, ?_, hbanks⟩ <;> decide

end Sys2Proof.Machine
end

section
/-! PROOF. A command whose condition does not hold changes nothing (log entries 3 and 4): answers, grants, decisions and
expiries outside their conditions, transmissions that are not in progress, and management commands with no request to
execute or with another command's request. -/

namespace Sys2Proof.Machine

/-! ## The request that a management command selects (R141, Table 8-7) -/

/-- Table 8-1: a slot waits with a request exactly when it is WAITING with it. -/
theorem Slot.waitingRequest_eq_some (q : Slot) (r : MgmtRequest) : q.waitingRequest = some r ↔ q = .waiting r := by
  cases q <;> simp [waitingRequest]

/-- R141: no request is executed while a RESET_PART is pending, or with no slot that waits. -/
theorem State.nextWaiting_none {s : State}
    (h : s.mu.resetPending = true ∨ ∀ k ∈ s.mu.arrivals, s.mu.slots[k].waitingRequest = none) :
    s.nextWaiting = none := by
  unfold State.nextWaiting
  split
  next => rfl
  next hpending =>
    refine List.findSome?_eq_none_iff.mpr fun k hk => ?_
    rw [h.resolve_left hpending k hk]
    rfl

theorem State.executeIf_none {s : State} (h : s.nextWaiting = none) (sel : MgmtRequest → Bool)
    (body : Fin 2 → MgmtRequest → State → State) : s.executeIf sel body = s := by
  simp only [State.executeIf, h]

/-- Table 8-7: the command that executes a MGMT_COMMAND with the code. -/
def CommandCode.instr : CommandCode → Instr
  | .openPort => .openPort
  | .closePort => .closePort
  | .commit => .commit
  | .discardStaging => .discardStaging
  | .clearErrors => .clearErrors
  | .resetPart => .resetPart

theorem MgmtRequest.instr_of_command {r : MgmtRequest} {c : CommandCode} (h : r.command = some c) :
    c.instr = r.instr := by
  unfold command at h
  split at h
  next hkind => cases c <;> simp only [instr, hkind, h, CommandCode.instr]
  all_goals cases h

/-- Table 8-7: a request that UNKNOWN_COMMAND_CODE selects is meant for it. -/
theorem MgmtRequest.instr_of_unknown {r : MgmtRequest} (hkind : r.kind = .mgmtCommand) (h : r.command = none) :
    Instr.unknownCommandCode = r.instr := by
  simp only [command, hkind] at h
  simp only [instr, hkind, h]

/-- R148, R153: the requests that HALT_ON_FATAL_ENABLE selects. -/
theorem State.enablesHalt_only {s : State} {r : MgmtRequest} (h : s.enablesHalt r = true) :
    r.kind = .mgmtWrite ∧ r.manager = true ∧ s.mu.haltOnFatal = false := by
  simp only [State.enablesHalt, Bool.and_eq_true, beq_iff_eq, Bool.not_eq_true'] at h
  obtain ⟨⟨⟨hkind, hmanager⟩, hdisabled⟩, _⟩ := h
  exact ⟨hkind, hmanager, hdisabled⟩

/-- The commands that execute a management request (R141). -/
def managementCommands : List Instr :=
  [.mgmtRead, .mgmtWrite, .haltOnFatalEnable, .openPort, .closePort, .commit, .discardStaging, .clearErrors, .resetPart,
    .unknownCommandCode]

/-- The command `c`, in the state `s`, may execute the request `r`. -/
def State.MeantFor (s : State) (c : Instr) (r : MgmtRequest) : Prop :=
  c ≠ .haltOnFatalEnable ∧ c = r.instr ∨
    c = .haltOnFatalEnable ∧ r.kind = .mgmtWrite ∧ r.manager = true ∧ s.mu.haltOnFatal = false

/-- R141, log entry 4: a management command executes the oldest waiting request where it selects it, and it selects
requests meant for it alone. -/
theorem exec_managementCommand {c : Instr} (hc : c ∈ managementCommands) (s : State) :
    ∃ (sel : MgmtRequest → Bool) (body : Fin 2 → MgmtRequest → State → State),
      exec c s = .next (s.executeIf sel body) ∧ ∀ r, sel r = true → s.MeantFor c r := by
  have hcommand {code : CommandCode} (hne : code.instr ≠ .haltOnFatalEnable) (r : MgmtRequest)
      (hsel : (r.command == some code) = true) : s.MeantFor code.instr r :=
    .inl ⟨hne, MgmtRequest.instr_of_command (eq_of_beq hsel)⟩
  simp only [managementCommands, List.mem_cons, List.not_mem_nil, or_false] at hc
  rcases hc with rfl | rfl | rfl | rfl | rfl | rfl | rfl | rfl | rfl | rfl
  · refine ⟨_, State.performRead, rfl, fun r hsel => .inl ⟨nofun, ?_⟩⟩
    simp only [MgmtRequest.instr, eq_of_beq hsel]
  · refine ⟨_, State.performWrite, rfl, fun r hsel => .inl ⟨nofun, ?_⟩⟩
    simp only [MgmtRequest.instr, eq_of_beq hsel]
  · exact ⟨_, State.performWrite, rfl, fun r hsel => .inr ⟨rfl, State.enablesHalt_only hsel⟩⟩
  · exact ⟨_, State.performOpen, rfl, hcommand (code := .openPort) nofun⟩
  · exact ⟨_, State.performClose, rfl, hcommand (code := .closePort) nofun⟩
  · exact ⟨_, State.performCommit, rfl, hcommand (code := .commit) nofun⟩
  · exact ⟨_, State.performDiscardStaging, rfl, hcommand (code := .discardStaging) nofun⟩
  · exact ⟨_, State.performClearErrors, rfl, hcommand (code := .clearErrors) nofun⟩
  · exact ⟨_, State.performResetPart, rfl, hcommand (code := .resetPart) nofun⟩
  · refine ⟨_, State.performUnknown, rfl, fun r hsel => .inl ⟨nofun, ?_⟩⟩
    obtain ⟨hkind, hnone⟩ := Bool.and_eq_true _ _ ▸ hsel
    exact MgmtRequest.instr_of_unknown (eq_of_beq hkind) (eq_of_beq hnone)

/-- R141: with no request to execute a management command changes nothing. -/
theorem exec_management_none {c : Instr} (hc : c ∈ managementCommands) {s : State} (h : s.nextWaiting = none) :
    exec c s = .next s := by
  obtain ⟨sel, body, hexec, _⟩ := exec_managementCommand hc s
  rw [hexec, State.executeIf_none h]

/-- R141: a request is left to the command it is meant for. -/
theorem exec_management_other {c : Instr} (hc : c ∈ managementCommands) {s : State} {k : Fin 2} {r : MgmtRequest}
    (h : s.Executes k r) (hother : ¬s.MeantFor c r) : exec c s = .next s := by
  obtain ⟨sel, body, hexec, hsel⟩ := exec_managementCommand hc s
  rw [hexec, h.executeIf, if_neg fun hselected => hother (hsel r hselected)]

/-! ## The local bus (R84, R88, R94, R98) -/

/-- R94: with no beat in progress no item awaits an answer. -/
theorem State.beatItem_none {s : State} (h : s.lbe.engine ≠ .owning ∨ s.lbe.beat = none) : s.beatItem = none := by
  unfold State.beatItem
  split
  next howning hbeat =>
    rw [hbeat] at h
    exact absurd howning (h.resolve_right nofun)
  all_goals rfl

theorem exec_answer_unawaited {s : State} (h : s.beatItem = none) : exec .retryAnswer s = .next s ∧
    exec .errorAnswer s = .next s ∧
    ∀ (lanes : Word) (parity : Nibble), exec (.ackAnswer lanes parity) s = .next s := by
  simp only [exec, execRetryAnswer, execErrorAnswer, execAckAnswer, h, implies_true, and_self]

theorem exec_busGrant_unawaited {s : State} (h : s.lbe.engine ≠ .requesting) : exec .busGrant s = .next s := by
  simp only [exec, execBusGrant]
  split
  next hrequesting _ => exact absurd hrequesting h
  all_goals rfl

theorem exec_arbitrationDecision_busy {s : State} (h : s.lbe.engine ≠ .idle) :
    exec .arbitrationDecision s = .next s := by
  simp only [exec, execArbitrationDecision]
  split
  next hidle _ => exact absurd hidle h
  next hidle _ => exact absurd hidle h
  all_goals rfl

/-! ## The upstream link (R166, R171) -/

theorem exec_transmitChoice_busy {s : State} (h : s.link.state = .down ∨ s.link.tx ≠ none) :
    exec .transmitChoice s = .next s := by
  simp only [exec, execTransmitChoice]
  split
  next hup hfree =>
    rcases h with hdown | hbusy
    · rw [hup] at hdown; cases hdown
    · exact absurd hfree hbusy
  all_goals rfl

theorem exec_responseSent_other {s : State} (h : ∀ i : Fin 24, s.link.txSource ≠ some (.response i)) :
    exec .responseSent s = .next s := by
  simp only [exec, execResponseSent]
  split
  next i hsource => exact absurd hsource (h i)
  all_goals rfl

theorem exec_mgmtReplySent_other {s : State} (h : ∀ k : Fin 2, s.link.txSource ≠ some (.reply k)) :
    exec .mgmtReplySent s = .next s := by
  simp only [exec, execMgmtReplySent]
  split
  next k hsource => exact absurd hsource (h k)
  all_goals rfl

theorem exec_transmissionEnds_other {s : State} (hcredit : s.link.txSource ≠ some .credit)
    (hnotice : s.link.txSource ≠ some .notice) : exec .upstreamTransmissionEnds s = .next s := by
  simp only [exec, execUpstreamTransmissionEnds]
  split
  next hsource => exact absurd hsource hcredit
  next hsource => exact absurd hsource hnotice
  all_goals rfl

/-- Settles O12: each command by the lemma of its own condition. -/
theorem unmetConditionsChangeNothing : Obligations.UnmetConditionsChangeNothing := by
  refine ⟨Slot.waitingRequest_eq_some, fun s => ⟨fun h => exec_answer_unawaited (State.beatItem_none h), fun h => ?_,
    fun h => ?_, fun i h => ?_, exec_busGrant_unawaited, exec_arbitrationDecision_busy, exec_transmitChoice_busy,
    exec_responseSent_other, exec_mgmtReplySent_other, exec_transmissionEnds_other, fun c hc => ⟨fun h => ?_, ?_⟩⟩⟩
  · simp only [exec, execLocalAccessTimerExpiry, h]
  · simp only [exec, execBackoffIntervalExpiry, h]
  · simp only [exec, execBackoffIntervalExpiry, h]
  · exact exec_management_none hc (State.nextWaiting_none h)
  · intro k r hexecutes hother
    refine exec_management_other hc hexecutes ?_
    rintro (⟨hne, hmeant⟩ | ⟨heq, hkind, hmanager, hdisabled⟩)
    · rcases hother with ⟨_, hnot⟩ | ⟨heq, _⟩
      · exact hnot hmeant
      · exact hne heq
    · rcases hother with ⟨hne, _⟩ | ⟨_, hnot⟩
      · exact hne heq
      · simp [hkind, hmanager, hdisabled] at hnot

end Sys2Proof.Machine
end

section
/-! PROOF. Sound states, part by part: what each part of the invariant reads of a state, and how it passes to another state
where only some of that changes. -/

namespace Sys2Proof.Machine

/-! ## Tracker entries (R56, R57, Table 4-1) -/

/-- R56: the request of an entry in use, and how far it has come. -/
structure TrackerEntry.RequestSound (e : TrackerEntry) : Prop where
  lengthRange : 1 ≤ e.length ∧ e.length ≤ 16
  progressBound : e.progress ≤ e.length
  readData : e.kind = .read → e.data.length = e.progress
  writeData : e.kind = .writeConfirmed → e.data.length = e.length
  retryBound : e.retryCount ≤ 15

theorem TrackerEntry.Sound.request {e : TrackerEntry} {n : Nat} (h : e.Sound n) (hu : e.inUse = true) :
    e.RequestSound := ⟨h.lengthRange hu, h.progressBound hu, h.readData hu, h.writeData hu, h.retryBound hu⟩

/-- R57: a COMPLETE entry has a status, and no other has one. -/
theorem TrackerEntry.Sound.status_none {e : TrackerEntry} {n : Nat} (h : e.Sound n) (hc : e.state ≠ .complete) :
    e.status = none := Option.not_isSome_iff_eq_none.mp fun hsome => hc (h.statusComplete.mp hsome)

/-- R57, R62: only an ORDERED entry counts writes ahead. -/
theorem TrackerEntry.Sound.unordered {e : TrackerEntry} {n : Nat} (h : e.Sound n) (ho : e.state ≠ .ordered) :
    e.writesAhead = 0 := of_not_not fun hcount => ho (h.orderedCount.mpr hcount)

/-- An entry in use whose request is not finished: it waits, or its transaction is in progress. -/
def TrackerEntry.Unfinished (e : TrackerEntry) : Prop := e.state ≠ .free ∧ e.state ≠ .complete

theorem TrackerEntry.inUse_iff (e : TrackerEntry) : e.inUse = true ↔ e.state ≠ .free := bne_iff_ne

theorem TrackerEntry.Unfinished.inUse {e : TrackerEntry} (h : e.Unfinished) : e.inUse = true := e.inUse_iff.mpr h.1

theorem TrackerEntry.unfinished_of_state {e : TrackerEntry} {st : EntryState} (h : e.state = st)
    (hst : st ≠ .free ∧ st ≠ .complete) : e.Unfinished := by
  rw [Unfinished, h]
  exact hst

theorem TrackerEntry.sound_of_unfinished {e : TrackerEntry} {n : Nat} (hstate : e.Unfinished)
    (hrequest : e.RequestSound) (hplaced : e.placement.isSome = true) (hmore : e.progress < e.length) (hstatus : e.status = none)
    (hordered : e.state = .ordered ↔ e.writesAhead ≠ 0) (hcount : e.writesAhead ≤ n)
    (horphan : e.orphan = true → e.state = .active) : e.Sound n where
  orphanActive := horphan
  statusComplete := iff_of_false (by rw [hstatus]; exact Bool.false_ne_true) hstate.2
  orderedCount := hordered
  countBound := hcount
  placed _ _ := hplaced
  lengthRange _ := hrequest.lengthRange
  progressBound _ := hrequest.progressBound
  unfinished _ _ := hmore
  readData _ := hrequest.readData
  writeData _ := hrequest.writeData
  okWhole hok := by rw [hstatus] at hok; cases hok
  retryBound _ := hrequest.retryBound

/-- R57, R67: an entry that completes; OK stands for a request that is whole. -/
theorem TrackerEntry.completed_sound {e : TrackerEntry} {st : Status} (hrequest : e.RequestSound)
    (horphan : e.orphan = false) (hok : st = .ok → e.progress = e.length) (n : Nat) : (e.completed st).Sound n where
  orphanActive ho := absurd ho (ne_true_of_eq_false horphan)
  statusComplete := iff_of_true rfl rfl
  orderedCount := iff_of_false nofun (fun h => h rfl)
  countBound := Nat.zero_le n
  placed _ hne := absurd rfl hne
  lengthRange _ := hrequest.lengthRange
  progressBound _ := hrequest.progressBound
  unfinished _ hne := absurd rfl hne
  readData _ := hrequest.readData
  writeData _ := hrequest.writeData
  okWhole hst := hok (Option.some.inj hst)
  retryBound _ := hrequest.retryBound

/-- R56: of a FREE entry nothing is asked but that it counts no writes, is no orphan and has no status. -/
theorem TrackerEntry.freed_sound (e : TrackerEntry) (n : Nat) : e.freed.Sound n where
  orphanActive := nofun
  statusComplete := iff_of_false Bool.false_ne_true nofun
  orderedCount := iff_of_false nofun (fun h => h rfl)
  countBound := Nat.zero_le n
  placed := nofun
  lengthRange := nofun
  progressBound := nofun
  unfinished := nofun
  readData := nofun
  writeData := nofun
  okWhole := nofun
  retryBound := nofun

/-- The records in the queue bound the writes that an entry counts. -/
theorem TrackerEntry.Sound.of_count {e : TrackerEntry} {n m : Nat} (h : e.Sound n) (hm : e.writesAhead ≤ m) :
    e.Sound m := { h with countBound := hm }

/-- An unfinished entry that is not ORDERED moves to another state of that kind. -/
theorem TrackerEntry.Sound.moved {e : TrackerEntry} {n : Nat} (h : e.Sound n) (hfrom : e.Unfinished)
    (hfromOrder : e.state ≠ .ordered) {st : EntryState} {retries : Nat} (hto : st ≠ .free ∧ st ≠ .complete)
    (htoOrder : st ≠ .ordered) (hretries : retries ≤ 15) (horphan : e.orphan = true → st = .active) :
    ({ e with state := st, retryCount := retries } : TrackerEntry).Sound n := by
  have hrequest := h.request hfrom.inUse
  have hcount := h.unordered hfromOrder
  exact sound_of_unfinished hto { hrequest with retryBound := hretries } (h.placed hfrom.inUse hfrom.2)
    (h.unfinished hfrom.inUse hfrom.2) (h.status_none hfrom.2) (iff_of_false htoOrder (not_not.mpr hcount))
    h.countBound horphan

/-- R63: a record has retired; the entries behind it count one less. -/
theorem TrackerEntry.Sound.oneRetired {e : TrackerEntry} {n : Nat} (h : e.Sound (n + 1)) : e.oneRetired.Sound n := by
  by_cases hordered : e.state = .ordered
  · have hsome : e.writesAhead ≠ 0 := h.orderedCount.mp hordered
    have hbound := h.countBound
    have hopen : e.Unfinished := unfinished_of_state hordered (by decide)
    have hnoOrphan : ¬e.orphan = true := fun ho => by
      have := h.orphanActive ho
      rw [hordered] at this
      cases this
    rw [TrackerEntry.oneRetired, if_pos hordered]
    refine sound_of_unfinished ?_ ?_ (h.placed hopen.inUse hopen.2) (h.unfinished hopen.inUse hopen.2)
      (h.status_none hopen.2) ?_ ?_ (fun ho => absurd ho hnoOrphan)
    · exact unfinished_of_state (st := if e.writesAhead ≤ 1 then .ready else .ordered) rfl (by split <;> decide)
    · exact { h.request hopen.inUse with }
    · dsimp only
      split
      · exact iff_of_false nofun (by omega)
      · exact iff_of_true rfl (by omega)
    · dsimp only
      omega
  · rw [oneRetired_unordered hordered]
    exact h.of_count (by rw [h.unordered hordered]; exact Nat.zero_le n)

/-- R66, R93: a word is acknowledged. -/
theorem TrackerEntry.RequestSound.acknowledged {e : TrackerEntry} (h : e.RequestSound) (hmore : e.progress < e.length)
    (w : Word) : (e.acknowledged w).RequestSound := by
  cases hk : e.kind with
  | read =>
    rw [acknowledged_read w hk]
    refine ⟨h.lengthRange, hmore, fun _ => ?_, fun hw => ?_, h.retryBound⟩
    · simp only [List.length_append, List.length_singleton, h.readData hk]
    · rw [hk] at hw; cases hw
  | writeConfirmed =>
    rw [acknowledged_write w hk]
    exact ⟨h.lengthRange, hmore, fun hr => absurd (hk.symm.trans hr) (by decide), h.writeData, h.retryBound⟩

/-- R66: of an entry an acknowledged word changes the progress and the data. -/
theorem TrackerEntry.acknowledged_frame (e : TrackerEntry) (w : Word) : (e.acknowledged w).state = e.state ∧
    (e.acknowledged w).orphan = e.orphan ∧ (e.acknowledged w).placement = e.placement ∧
    (e.acknowledged w).length = e.length ∧ (e.acknowledged w).status = e.status ∧
    (e.acknowledged w).writesAhead = e.writesAhead ∧ (e.acknowledged w).progress = e.progress + 1 := by
  unfold acknowledged
  split <;> exact ⟨rfl, rfl, rfl, rfl, rfl, rfl, rfl⟩

/-- R93: a word that is not the last is acknowledged. -/
theorem TrackerEntry.Sound.acknowledged {e : TrackerEntry} {n : Nat} (h : e.Sound n) (hstate : e.Unfinished)
    (hmore : e.progress + 1 < e.length) (w : Word) : (e.acknowledged w).Sound n := by
  obtain ⟨hst, ho, hp, hl, hs, hw, hpr⟩ := e.acknowledged_frame w
  refine sound_of_unfinished (unfinished_of_state hst hstate)
    ((h.request hstate.inUse).acknowledged (Nat.lt_of_succ_lt hmore) w) ?_ ?_ ?_ ?_ ?_ ?_
  · rw [hp]; exact h.placed hstate.inUse hstate.2
  · rw [hpr, hl]; exact hmore
  · rw [hs]; exact h.status_none hstate.2
  · rw [hst, hw]; exact h.orderedCount
  · rw [hw]; exact h.countBound
  · rw [ho, hst]; exact h.orphanActive

/-- R78: an entry at a session end. -/
theorem TrackerEntry.Sound.sessionEnded {e : TrackerEntry} {n : Nat} (h : e.Sound n) : e.sessionEnded.Sound n := by
  unfold TrackerEntry.sessionEnded
  split
  · exact e.freed_sound n
  · split
    next hactive => exact { h with orphanActive := fun _ => hactive }
    next => exact h

/-! ## The lists of the Request Tracker (R58, R70) -/

/-- R58, R70: the allocation order and the completion list agree with the entries. -/
structure RequestTracker.ListsAgree (t : RequestTracker) : Prop where
  orderNodup : t.order.Nodup
  orderMem : ∀ i : Fin 24, i ∈ t.order ↔ t.entries[i].inUse = true
  completionNodup : t.completion.Nodup
  completionMem : ∀ i : Fin 24, i ∈ t.completion ↔ t.entries[i].state = .complete

theorem State.TrackerSound.lists {s : State} (h : s.TrackerSound) : s.rt.ListsAgree :=
  ⟨h.orderNodup, h.orderMem, h.completionNodup, h.completionMem⟩

theorem RequestTracker.ListsAgree.trackerSound {s : State} (h : s.rt.ListsAgree)
    (hentries : ∀ i : Fin 24, s.rt.entries[i].Sound s.occupancy) : s.TrackerSound :=
  ⟨h.orderNodup, h.orderMem, h.completionNodup, h.completionMem, hentries⟩

/-- The lists stay, and so does which entries are in use and which are COMPLETE. -/
theorem RequestTracker.ListsAgree.of_same {t u : RequestTracker} (h : t.ListsAgree) (horder : u.order = t.order)
    (hcompletion : u.completion = t.completion) (hinUse : ∀ i : Fin 24, u.entries[i].inUse = t.entries[i].inUse)
    (hcomplete : ∀ i : Fin 24, u.entries[i].state = .complete ↔ t.entries[i].state = .complete) : u.ListsAgree where
  orderNodup := horder ▸ h.orderNodup
  orderMem i := by rw [horder, hinUse]; exact h.orderMem i
  completionNodup := hcompletion ▸ h.completionNodup
  completionMem i := by rw [hcompletion, hcomplete]; exact h.completionMem i

/-- An unfinished entry is replaced by one that is unfinished too. -/
theorem RequestTracker.ListsAgree.replace {t : RequestTracker} (h : t.ListsAgree) {i : Fin 24} {e : TrackerEntry}
    (hfrom : t.entries[i].Unfinished) (hto : e.Unfinished) :
    RequestTracker.ListsAgree { t with entries := t.entries.set i e } := by
  refine h.of_same rfl rfl (fun j => ?_) fun j => ?_ <;> dsimp only <;> rw [set_getElem] <;> split
  next hji => rw [hto.inUse, hji, hfrom.inUse]
  next => rfl
  next hji => exact iff_of_false hto.2 (hji ▸ hfrom.2)
  next => exact Iff.rfl

theorem nodup_append_new {α : Type} {l : List α} {a : α} (h : l.Nodup) (ha : a ∉ l) : (l ++ [a]).Nodup :=
  List.concat_eq_append ▸ List.Nodup.concat ha h

/-- R67: an unfinished entry completes, last on the completion list. -/
theorem RequestTracker.ListsAgree.complete {t : RequestTracker} (h : t.ListsAgree) {i : Fin 24} {e : TrackerEntry}
    (hfrom : t.entries[i].Unfinished) (hto : e.state = .complete) : RequestTracker.ListsAgree { t with
      completion := t.completion ++ [i], entries := t.entries.set i e } where
  orderNodup := h.orderNodup
  orderMem j := by
    dsimp only
    rw [set_getElem, h.orderMem]
    split
    next hji => rw [hji, hfrom.inUse, TrackerEntry.inUse_of_state hto (by decide)]
    next => exact Iff.rfl
  completionNodup := nodup_append_new h.completionNodup fun hi => hfrom.2 ((h.completionMem i).mp hi)
  completionMem j := by
    dsimp only
    rw [set_getElem, List.mem_append, List.mem_singleton, h.completionMem]
    split
    next hji => exact iff_of_true (.inr hji) hto
    next hji => exact or_iff_left hji

/-- R71, R79: an entry becomes FREE and leaves both lists. -/
theorem RequestTracker.ListsAgree.free {t : RequestTracker} (h : t.ListsAgree) (i : Fin 24) {e : TrackerEntry}
    (hto : e.state = .free) : RequestTracker.ListsAgree { t with
      order := t.order.filter (· != i), completion := t.completion.filter (· != i)
      entries := t.entries.set i e } where
  orderNodup := h.orderNodup.filter _
  orderMem j := by
    dsimp only
    rw [set_getElem, List.mem_filter, bne_iff_ne, h.orderMem]
    split
    next hji => exact iff_of_false (fun hj => hj.2 hji) (fun hu => (e.inUse_iff.mp hu) hto)
    next hji => exact and_iff_left hji
  completionNodup := h.completionNodup.filter _
  completionMem j := by
    dsimp only
    rw [set_getElem, List.mem_filter, bne_iff_ne, h.completionMem]
    split
    next hji => exact iff_of_false (fun hj => hj.2 hji) (by rw [hto]; nofun)
    next hji => exact and_iff_left hji

/-- R58, R61: a FREE entry is allocated, last in the order, and COMPLETE at once if it is refused. -/
theorem RequestTracker.ListsAgree.allocate {t : RequestTracker} (h : t.ListsAgree) {i : Fin 24} {e : TrackerEntry}
    (hfrom : t.entries[i].inUse = false) (hto : e.inUse = true) (counter : BitVec 8) : RequestTracker.ListsAgree
      { entries := t.entries.set i e, counter := counter, order := t.order ++ [i]
        completion := if e.state = .complete then t.completion ++ [i] else t.completion } := by
  have hfree : t.entries[i].state = .free := of_not_not fun hne =>
    ne_true_of_eq_false hfrom (t.entries[i].inUse_iff.mpr hne)
  have hnew : i ∉ t.completion := fun hi => by
    have hcomplete := (h.completionMem i).mp hi
    rw [hfree] at hcomplete
    cases hcomplete
  refine ⟨nodup_append_new h.orderNodup fun hi => ?_, fun j => ?_, ?_, fun j => ?_⟩
  · exact ne_true_of_eq_false hfrom ((h.orderMem i).mp hi)
  · dsimp only
    rw [set_getElem, List.mem_append, List.mem_singleton, h.orderMem]
    split
    next hji => exact iff_of_true (.inr hji) hto
    next hji => exact or_iff_left hji
  · dsimp only
    split
    · exact nodup_append_new h.completionNodup hnew
    · exact h.completionNodup
  · dsimp only
    rw [set_getElem]
    split
    next hcomplete =>
      rw [List.mem_append, List.mem_singleton, h.completionMem]
      split
      next hji => exact iff_of_true (.inr hji) hcomplete
      next hji => exact or_iff_left hji
    next hopen =>
      split
      next hji => exact iff_of_false (hji ▸ hnew) hopen
      next => exact h.completionMem j

/-- R78: at a session end the ACTIVE entries stay in use. -/
theorem TrackerEntry.sessionEnded_inUse (e : TrackerEntry) :
    e.sessionEnded.inUse = true ↔ e.inUse = true ∧ e.freedAtSessionEnd = false := by
  cases h : e.state <;> simp [sessionEnded, freedAtSessionEnd, inUse, freed, h]

theorem TrackerEntry.sessionEnded_kind (e : TrackerEntry) : (e.sessionEnded.state = .active ↔ e.state = .active) ∧
    e.sessionEnded.state ≠ .complete ∧ e.sessionEnded.state ≠ .backoff := by
  cases h : e.state <;> simp [sessionEnded, freedAtSessionEnd, freed, h]

theorem RequestTracker.ListsAgree.sessionEnded {t : RequestTracker} (h : t.ListsAgree) : RequestTracker.ListsAgree
    { t with
      entries := mapAll TrackerEntry.sessionEnded t.entries
      order := t.order.filter fun i => !t.entries[i].freedAtSessionEnd
      completion := [] } where
  orderNodup := h.orderNodup.filter _
  orderMem i := by
    dsimp only
    rw [mapAll_getElem, TrackerEntry.sessionEnded_inUse, List.mem_filter, h.orderMem, Bool.not_eq_true']
  completionNodup := List.nodup_nil
  completionMem i := by
    dsimp only
    obtain ⟨_, hincomplete, _⟩ := t.entries[i].sessionEnded_kind
    rw [mapAll_getElem]
    exact iff_of_false List.not_mem_nil hincomplete

end Sys2Proof.Machine
end

section
/-! PROOF. The other parts of a sound state: the engine against the items it may run (R82, R83), the slots and what a
drain's end does to them (R31, R139, R142), the Link Port (R158, R166) and the credits (R167). -/

namespace Sys2Proof.Machine

/-! ## The Local Bus Engine (R82, R83, Table 5-1) -/

/-- Table 5-1: the engine's own fields. -/
structure LocalBusEngine.Formed (b : LocalBusEngine) : Prop where
  idleCurrent : b.engine = .idle ↔ b.current = none
  idleTimer : b.engine = .idle ↔ b.accessTimer = none
  owningBeat : b.engine = .owning ↔ b.beat.isSome = true
  owningCycle : b.engine = .owning ↔ b.cycle.isSome = true
  streakBound : b.streak ≤ 15

theorem State.EngineSound.formed {s : State} (h : s.EngineSound) : s.lbe.Formed :=
  ⟨h.idleCurrent, h.idleTimer, h.owningBeat, h.owningCycle, h.streakBound⟩

/-- The state of the queue's head, if there is one. -/
def State.headState (s : State) : Option RecordState := s.pwq.head?.map WriteRecord.state

theorem State.headIs_iff (s : State) (st : RecordState) : s.headIs st ↔ s.headState = some st := by
  unfold State.headIs State.headState
  cases s.pwq <;> simp

/-- Table 5-1: the engine runs the head when it is ACTIVE, and its timer runs when it is in BACKOFF. -/
structure LocalBusEngine.FitsHead (b : LocalBusEngine) (st : Option RecordState) : Prop where
  active : b.current = some .head ↔ st = some .active
  backoff : b.headTimer.isSome = true ↔ st = some .backoff

/-- Table 5-1: the same of a tracker entry. -/
structure LocalBusEngine.FitsEntry (b : LocalBusEngine) (i : Fin 24) (st : EntryState) : Prop where
  active : b.current = some (.entry i) ↔ st = .active
  backoff : b.entryTimers[i].isSome = true ↔ st = .backoff

theorem State.EngineSound.fitsHead {s : State} (h : s.EngineSound) : s.lbe.FitsHead s.headState :=
  ⟨h.headActive.trans (s.headIs_iff _), h.headTimer.trans (s.headIs_iff _)⟩

theorem State.EngineSound.fitsEntry {s : State} (h : s.EngineSound) (i : Fin 24) :
    s.lbe.FitsEntry i s.rt.entries[i].state := ⟨h.entryActive i, h.entryTimer i⟩

theorem State.EngineSound.of_fits {s : State} (hformed : s.lbe.Formed) (hhead : s.lbe.FitsHead s.headState)
    (hentry : ∀ i : Fin 24, s.lbe.FitsEntry i s.rt.entries[i].state) : s.EngineSound where
  idleCurrent := hformed.idleCurrent
  idleTimer := hformed.idleTimer
  owningBeat := hformed.owningBeat
  owningCycle := hformed.owningCycle
  headActive := hhead.active.trans (s.headIs_iff _).symm
  entryActive i := (hentry i).active
  headTimer := hhead.backoff.trans (s.headIs_iff _).symm
  entryTimer i := (hentry i).backoff
  streakBound := hformed.streakBound

/-- The engine does not tell two states of the head apart that are neither ACTIVE nor BACKOFF. -/
theorem LocalBusEngine.FitsHead.of_same {b : LocalBusEngine} {st st' : Option RecordState} (h : b.FitsHead st)
    (hactive : st' = some .active ↔ st = some .active) (hbackoff : st' = some .backoff ↔ st = some .backoff) :
    b.FitsHead st' := ⟨h.active.trans hactive.symm, h.backoff.trans hbackoff.symm⟩

/-- The engine `b` is `old` after entry `i` has taken the state `st`. -/
structure LocalBusEngine.FollowsEntry (b old : LocalBusEngine) (i : Fin 24) (st : EntryState) : Prop where
  formed : b.Formed
  fits : b.FitsEntry i st
  head : b.current = some .head ↔ old.current = some .head
  headTimer : b.headTimer = old.headTimer
  others : ∀ j : Fin 24, j ≠ i → (b.current = some (.entry j) ↔ old.current = some (.entry j)) ∧
    b.entryTimers[j] = old.entryTimers[j]

/-- The engine `b` is `old` after the head has taken the state `st`. -/
structure LocalBusEngine.FollowsHead (b old : LocalBusEngine) (st : Option RecordState) : Prop where
  formed : b.Formed
  fits : b.FitsHead st
  entries : ∀ j : Fin 24, b.current = some (.entry j) ↔ old.current = some (.entry j)
  timers : b.entryTimers = old.entryTimers

theorem State.EngineSound.followEntry {s t : State} (h : s.EngineSound) {i : Fin 24} {e : TrackerEntry}
    (hb : t.lbe.FollowsEntry s.lbe i e.state) (hentries : t.rt.entries = s.rt.entries.set i e) (hq : t.pwq = s.pwq) :
    t.EngineSound := by
  have hhead : t.headState = s.headState := by rw [State.headState, State.headState, hq]
  refine .of_fits hb.formed ⟨?_, ?_⟩ fun j => ?_
  · rw [hb.head, hhead]; exact h.fitsHead.active
  · rw [hb.headTimer, hhead]; exact h.fitsHead.backoff
  · rw [hentries, set_getElem]
    split
    next hji => exact hji ▸ hb.fits
    next hji =>
      obtain ⟨hcurrent, htimer⟩ := hb.others j hji
      exact ⟨hcurrent.trans (h.entryActive j), by rw [htimer]; exact h.entryTimer j⟩

theorem State.EngineSound.followHead {s t : State} (h : s.EngineSound) (hb : t.lbe.FollowsHead s.lbe t.headState)
    (hactive : ∀ i : Fin 24, t.rt.entries[i].state = .active ↔ s.rt.entries[i].state = .active)
    (hbackoff : ∀ i : Fin 24, t.rt.entries[i].state = .backoff ↔ s.rt.entries[i].state = .backoff) :
    t.EngineSound :=
  .of_fits hb.formed hb.fits fun j =>
    ⟨(hb.entries j).trans ((h.entryActive j).trans (hactive j).symm),
      by rw [hb.timers]; exact (h.entryTimer j).trans (hbackoff j).symm⟩

/-- R83, R100: an engine that has been released is IDLE. -/
theorem LocalBusEngine.Formed.of_idle {b : LocalBusEngine} (hengine : b.engine = .idle) (hcurrent : b.current = none)
    (htimer : b.accessTimer = none) (hbeat : b.beat = none) (hcycle : b.cycle = none) (hstreak : b.streak ≤ 15) :
    b.Formed where
  idleCurrent := iff_of_true hengine hcurrent
  idleTimer := iff_of_true hengine htimer
  owningBeat := by rw [hengine, hbeat]; exact iff_of_false nofun Bool.false_ne_true
  owningCycle := by rw [hengine, hcycle]; exact iff_of_false nofun Bool.false_ne_true
  streakBound := hstreak

theorem LocalBusEngine.Formed.released {b : LocalBusEngine} (h : b.Formed) : b.released.Formed :=
  .of_idle rfl rfl rfl rfl rfl h.streakBound

/-- R83, R88: an engine that waits for its grant. -/
theorem LocalBusEngine.Formed.of_requesting {b : LocalBusEngine} (hengine : b.engine = .requesting)
    (hcurrent : b.current.isSome = true) (htimer : b.accessTimer.isSome = true) (hbeat : b.beat = none)
    (hcycle : b.cycle = none) (hstreak : b.streak ≤ 15) : b.Formed where
  idleCurrent := by rw [hengine]; exact iff_of_false nofun (Option.isSome_iff_ne_none.mp hcurrent)
  idleTimer := by rw [hengine]; exact iff_of_false nofun (Option.isSome_iff_ne_none.mp htimer)
  owningBeat := by rw [hengine, hbeat]; exact iff_of_false nofun Bool.false_ne_true
  owningCycle := by rw [hengine, hcycle]; exact iff_of_false nofun Bool.false_ne_true
  streakBound := hstreak

/-- R83, R89: an engine that owns the bus. -/
theorem LocalBusEngine.Formed.of_owning {b : LocalBusEngine} (hengine : b.engine = .owning)
    (hcurrent : b.current.isSome = true) (htimer : b.accessTimer.isSome = true) (hbeat : b.beat.isSome = true)
    (hcycle : b.cycle.isSome = true) (hstreak : b.streak ≤ 15) : b.Formed where
  idleCurrent := by rw [hengine]; exact iff_of_false nofun (Option.isSome_iff_ne_none.mp hcurrent)
  idleTimer := by rw [hengine]; exact iff_of_false nofun (Option.isSome_iff_ne_none.mp htimer)
  owningBeat := iff_of_true hengine hbeat
  owningCycle := iff_of_true hengine hcycle
  streakBound := hstreak

/-- R83: an engine that does not own the bus drives no beat. -/
theorem LocalBusEngine.Formed.drives_nothing {b : LocalBusEngine} (h : b.Formed) (hnot : b.engine ≠ .owning) :
    b.beat = none ∧ b.cycle = none :=
  ⟨Option.not_isSome_iff_eq_none.mp fun hb => hnot (h.owningBeat.mpr hb),
    Option.not_isSome_iff_eq_none.mp fun hc => hnot (h.owningCycle.mpr hc)⟩

/-! ## The slots (R31, R139, R142) -/

/-- The slots and their orders pass soundly from `s` to `t`: no slot is filled or freed, and replies may become ready. -/
structure State.KeepsSlots (s t : State) : Prop where
  sound : s.SlotsSound → t.SlotsSound
  arrivals : t.mu.arrivals = s.mu.arrivals
  replies : s.mu.replies <+: t.mu.replies
  free : (∀ k : Fin 2, s.mu.slots[k] = .free) → ∀ k : Fin 2, t.mu.slots[k] = .free

theorem State.SlotsSound.of_same {s t : State} (h : s.SlotsSound)
    (hf : t.mu.slots = s.mu.slots ∧ t.mu.arrivals = s.mu.arrivals ∧ t.mu.replies = s.mu.replies) : t.SlotsSound := by
  obtain ⟨hslots, harrivals, hreplies⟩ := hf
  refine ⟨by rw [harrivals]; exact h.arrivalsNodup, fun k => ?_, by rw [hreplies]; exact h.repliesNodup, fun k => ?_⟩
  · rw [harrivals, hslots]; exact h.arrivalsMem k
  · rw [hreplies, hslots]; exact h.repliesMem k

theorem State.KeepsSlots.of_same {s t : State}
    (hf : t.mu.slots = s.mu.slots ∧ t.mu.arrivals = s.mu.arrivals ∧ t.mu.replies = s.mu.replies) : s.KeepsSlots t := by
  obtain ⟨hslots, harrivals, hreplies⟩ := id hf
  refine ⟨fun h => h.of_same hf, harrivals, ?_, fun h k => ?_⟩
  · rw [hreplies]
  · rw [hslots]; exact h k

theorem State.KeepsSlots.of_mu {s t : State} (h : t.mu = s.mu) : s.KeepsSlots t := .of_same (by rw [h]; simp)

theorem State.KeepsSlots.refl (s : State) : s.KeepsSlots s := .of_mu rfl

theorem State.KeepsSlots.trans {s t u : State} (h : s.KeepsSlots t) (h' : t.KeepsSlots u) : s.KeepsSlots u :=
  ⟨h'.sound ∘ h.sound, h'.arrivals.trans h.arrivals, h.replies.trans h'.replies, h'.free ∘ h.free⟩

theorem State.KeepsSlots.of_before {s t u : State} (h : t.KeepsSlots u) (hm : t.mu = s.mu) : s.KeepsSlots u :=
  (of_mu hm).trans h

/-- A slot that holds a request whose reply is not ready. -/
def Slot.unanswered (q : Slot) : Bool := q.occupied && !q.isReply

theorem Slot.unanswered_iff (q : Slot) : q.unanswered = true ↔ q.occupied = true ∧ q.isReply = false := by
  rw [unanswered, Bool.and_eq_true, Bool.not_eq_true']

theorem Slot.unanswered_of_holdsCommit {q : Slot} (h : q.holdsCommit = true) : q.unanswered = true := by
  cases q with
  | held r => rfl
  | _ => cases h

theorem Slot.answered_isReply {q : Slot} (h : q.unanswered = true) (m : MgmtReply) :
    (q.answered m).occupied = true ∧ (q.answered m).isReply = true := by
  cases q with
  | free => cases h
  | _ => exact ⟨rfl, rfl⟩

/-- R142: a reply becomes ready in a slot that has none. -/
theorem State.SlotsSound.placeReply {s : State} (h : s.SlotsSound) {k : Fin 2}
    (hk : s.mu.slots[k].unanswered = true) (m : MgmtReply) : (s.placeReply k m).SlotsSound := by
  obtain ⟨hoccupied, hnot⟩ := (Slot.unanswered_iff _).mp hk
  obtain ⟨hoccupied', hreply⟩ := Slot.answered_isReply hk m
  have hnew : k ∉ s.mu.replies := fun hmem => ne_true_of_eq_false hnot ((h.repliesMem k).mp hmem)
  refine ⟨by simpa only [State.placeReply_frame] using h.arrivalsNodup, fun j => ?_,
    nodup_append_new h.repliesNodup hnew, fun j => ?_⟩ <;> rw [State.placeReply_slot]
  · simp only [State.placeReply_frame, h.arrivalsMem]
    split
    next hjk => rw [hjk, hoccupied, hoccupied']
    next => exact Iff.rfl
  · simp only [State.placeReply, List.mem_append, List.mem_singleton, h.repliesMem]
    split
    next hjk => exact iff_of_true (.inr hjk) hreply
    next hjk => exact or_iff_left hjk

theorem State.placeReply_keepsSlots {s : State} {k : Fin 2} (hk : s.mu.slots[k].unanswered = true) (m : MgmtReply) :
    s.KeepsSlots (s.placeReply k m) where
  sound h := h.placeReply hk m
  arrivals := by simp
  replies := List.prefix_append _ _
  free h := by rw [h k] at hk; cases hk

/-- R31. -/
theorem State.placeDone_keepsSlots (s : State) : s.KeepsSlots s.placeDone := by
  unfold State.placeDone
  split
  next h => exact State.placeReply_keepsSlots (k := 0) (Slot.unanswered_of_holdsCommit h) _
  next =>
    split
    next h => exact State.placeReply_keepsSlots (k := 1) (Slot.unanswered_of_holdsCommit h) _
    next => exact .refl s

/-- R30, R31. -/
theorem State.countOut_keepsSlots (g : BitVec 8) (s : State) : s.KeepsSlots (s.countOut g) := by
  unfold State.countOut
  split
  · split
    · refine State.KeepsSlots.trans ?_ (State.placeDone_keepsSlots _)
      exact .of_mu rfl
    · exact .of_mu rfl
  · exact .refl s

theorem State.retirement_keepsSlots (g : BitVec 8) (s : State) : s.KeepsSlots (s.retirement g) :=
  (State.KeepsSlots.of_mu (t := (s.release .posted).orderingNotice) (by simp)).trans (State.countOut_keepsSlots g _)

theorem State.discardRecord_keepsSlots (r : WriteRecord) (s : State) : s.KeepsSlots (s.discardRecord r) :=
  (s.retirement_keepsSlots r.generation).trans (.of_mu (by simp [State.discardRecord]))

theorem State.foldl_discardRecord_keepsSlots (l : List WriteRecord) (s : State) :
    s.KeepsSlots (l.foldl State.discardRecord s) := by
  induction l generalizing s with
  | nil => exact .refl s
  | cons r l ih => exact (s.discardRecord_keepsSlots r).trans (ih _)

/-- R52: the discards of the entry to HALTED may end a drain. -/
theorem State.enterHalted_keepsSlots (s : State) : s.KeepsSlots s.enterHalted := by
  rw [State.enterHalted_eq]
  have hhalted : s.KeepsSlots s.queueHalted := .of_same ⟨rfl, rfl, rfl⟩
  refine (hhalted.trans (State.foldl_discardRecord_keepsSlots s.discards _)).trans (.of_mu ?_)
  simp only [State.completeWaiting_frame]

theorem State.freeEntry_keepsSlots (i : Fin 24) (s : State) : s.KeepsSlots (s.freeEntry i) := by
  rw [State.freeEntry_eq]
  refine State.KeepsSlots.trans ?_ (State.countOut_keepsSlots _ _)
  exact .of_mu rfl

/-! ## The Link Port (R158, R166, R172) -/

/-- What the Link Port holds beside its credits and the sequence number. -/
def LinkPort.SameSession (l l' : LinkPort) : Prop :=
  l'.state = l.state ∧ l'.tx = l.tx ∧ l'.skip = l.skip ∧ l'.sessionStart = l.sessionStart

theorem head?_of_prefix {α : Type} {l l' : List α} (h : l <+: l') {a : α} (ha : l.head? = some a) :
    l'.head? = some a := by
  obtain ⟨m, rfl⟩ := h
  rw [List.head?_append, ha]
  rfl

theorem LinkPort.txSource_of_none {l : LinkPort} (h : l.tx = none) : l.txSource = none := by
  rw [txSource, h]
  rfl

/-- R166: the source of the packet in transmission, if there is one, stays at the head of its order. -/
theorem State.TxSound.of_prefix {s t : State} (h : s.TxSound) (htx : t.link.tx = s.link.tx)
    (hcompletion : s.link.tx = none ∨ s.rt.completion <+: t.rt.completion)
    (hreplies : s.mu.replies <+: t.mu.replies) : t.TxSound := by
  have hsource : t.link.txSource = s.link.txSource := by rw [LinkPort.txSource, LinkPort.txSource, htx]
  unfold State.TxSound at h ⊢
  rw [hsource]
  split
  next heq =>
    rw [heq] at h
    refine head?_of_prefix (hcompletion.resolve_left fun hnone => ?_) h
    rw [LinkPort.txSource_of_none hnone] at heq
    cases heq
  next heq =>
    rw [heq] at h
    exact head?_of_prefix hreplies h
  all_goals trivial

theorem State.LinkSound.of_prefix {s t : State} (h : s.LinkSound) (hlink : s.link.SameSession t.link)
    (hcompletion : s.link.tx = none ∨ s.rt.completion <+: t.rt.completion) (hreplies : s.mu.replies <+: t.mu.replies)
    (hdown : s.link.state = .down → s.DownQuiet → t.DownQuiet) : t.LinkSound := by
  obtain ⟨hstate, htx, hskip, hmark⟩ := hlink
  exact ⟨fun hd => hdown (hstate ▸ hd) (h.downQuiet (hstate ▸ hd)), h.tx.of_prefix htx hcompletion hreplies,
    hskip ▸ h.skipBound, hmark.trans h.markClear⟩

/-- R78, R160: while the link is DOWN the ACTIVE orphans stay what they are, or leave. -/
theorem State.DownQuiet.of_entries {s t : State} (h : s.DownQuiet) (hslots : s.KeepsSlots t)
    (hcompletion : t.rt.completion = []) (hnotices : t.nq = s.nq) (htx : t.link.tx = s.link.tx)
    (hentries : ∀ i : Fin 24, t.rt.entries[i].inUse = true → s.rt.entries[i].inUse = true ∧
      t.rt.entries[i].state = s.rt.entries[i].state ∧ t.rt.entries[i].orphan = s.rt.entries[i].orphan) :
    t.DownQuiet where
  noCompletion := hcompletion
  slotsFree := hslots.free h.slotsFree
  noNotice := hnotices.trans h.noNotice
  noTx := htx.trans h.noTx
  orphans i hi := by
    obtain ⟨hinUse, hstate, horphan⟩ := hentries i hi
    rw [hstate, horphan]
    exact h.orphans i hinUse

/-! ## The credits (R167) -/

/-- R167: the resources that a pool's grants stand for: queued records, allocated entries and occupied slots. -/
def State.held (s : State) : Pool → Nat
  | .posted => s.pwq.length
  | .nonPosted => s.rt.order.length
  | .management => s.mu.arrivals.length

/-- A list of distinct indices, those that pass a test, is as long as their number. -/
theorem countP_eq_length {α : Type} {n : Nat} {p : α → Bool} {v : Vector α n} {l : List (Fin n)} (hnodup : l.Nodup)
    (hmem : ∀ i : Fin n, i ∈ l ↔ p v[i] = true) : v.toList.countP p = l.length := by
  rw [countP_toList_eq]
  refine ((List.perm_ext_iff_of_nodup ((List.nodup_finRange n).filter _) hnodup).mpr fun i => ?_).length_eq
  rw [List.mem_filter, hmem, and_iff_right (List.mem_finRange i)]

/-- Table 9-6: the resources in use, by the lists that the blocks keep of them. -/
theorem State.inUse_eq_held {s : State} (ht : s.rt.ListsAgree) (hs : s.SlotsSound) (p : Pool) :
    s.inUse p = s.held p := by
  cases p with
  | posted => rfl
  | nonPosted => exact countP_eq_length ht.orderNodup ht.orderMem
  | management => exact countP_eq_length hs.arrivalsNodup hs.arrivalsMem

/-- R167: a pool's resources in use, grants outstanding and returns awaiting together. -/
def State.pledged (s : State) (p : Pool) : Nat :=
  s.held p + (s.link.pool p).outstanding + (s.link.pool p).awaiting

theorem State.CreditsConserved.pledged_up {s : State} (h : s.CreditsConserved) (ht : s.rt.ListsAgree)
    (hs : s.SlotsSound) (hup : s.link.state = .up) (p : Pool) : s.pledged p = p.capacity := by
  have hp := h p
  rw [hup] at hp
  rw [State.pledged, ← State.inUse_eq_held ht hs]
  exact hp

theorem State.CreditsConserved.pool_down {s : State} (h : s.CreditsConserved) (hdown : s.link.state = .down)
    (p : Pool) : s.link.pool p = ⟨0, 0⟩ := by
  have hp := h p
  rw [hdown] at hp
  obtain ⟨houtstanding, hawaiting⟩ := hp
  cases hpool : s.link.pool p with
  | mk outstanding awaiting =>
    rw [hpool] at houtstanding hawaiting
    rw [show outstanding = 0 from houtstanding, show awaiting = 0 from hawaiting]

theorem State.CreditsConserved.of_pledged {s : State} (ht : s.rt.ListsAgree) (hs : s.SlotsSound)
    (hup : s.link.state = .up → ∀ p, s.pledged p = p.capacity)
    (hdown : s.link.state = .down → ∀ p, s.link.pool p = ⟨0, 0⟩) : s.CreditsConserved := by
  intro p
  split
  next h => rw [State.inUse_eq_held ht hs]; exact hup h p
  next h => rw [hdown h p]; exact ⟨rfl, rfl⟩

end Sys2Proof.Machine
end

section
/-! PROOF. One sound state after another: what has to be shown of the parts that change, and the entries that change,
complete or become FREE. -/

namespace Sys2Proof.Machine

/-! ## One state after another -/

/-- R167: the credits of `t` are those of `s`, each pool's pledges taken together. -/
structure State.KeepsPledges (s t : State) : Prop where
  up : s.link.state = .up → ∀ p, t.pledged p = s.pledged p
  down : s.link.state = .down → ∀ p, t.link.pool p = s.link.pool p

theorem State.KeepsPledges.of_frame {s t : State} (hlink : t.link = s.link) (hheld : ∀ p, t.held p = s.held p) :
    s.KeepsPledges t where
  up _ p := by rw [State.pledged, State.pledged, hlink, hheld]
  down _ p := by rw [hlink]

/-- R169: a resource of a pool is released. -/
theorem State.KeepsPledges.of_release {s t : State} {q : Pool} (hlink : t.link = (s.release q).link)
    (hheld : ∀ p, t.held p + (if p = q then 1 else 0) = s.held p) : s.KeepsPledges t where
  up hup p := by
    have hp := hheld p
    rw [State.pledged, State.pledged, hlink, State.release_up q hup, LinkPort.pool_setPool]
    split at hp
    next hpq => rw [if_pos hpq, hpq]; rw [hpq] at hp; dsimp only; omega
    next hpq => rw [if_neg hpq]; omega
  down hdown p := by rw [hlink, State.release_down q hdown]

theorem LinkPort.SameSession.refl (l : LinkPort) : l.SameSession l := ⟨rfl, rfl, rfl, rfl⟩

theorem LinkPort.SameSession.of_eq {l l' : LinkPort} (h : l' = l) : l.SameSession l' := h ▸ .refl l

/-- R169. -/
theorem State.release_sameSession (p : Pool) (s : State) : s.link.SameSession (s.release p).link := by
  simp [LinkPort.SameSession]

/-- The parts of a state that follows a sound one. -/
structure State.Follows (s t : State) : Prop where
  queue : t.QueueSound
  lists : t.rt.ListsAgree
  entries : ∀ i : Fin 24, t.rt.entries[i].Sound t.occupancy
  engine : t.EngineSound
  slots : s.KeepsSlots t
  session : s.link.SameSession t.link
  completion : s.link.tx = none ∨ s.rt.completion <+: t.rt.completion
  quiet : s.link.state = .down → s.DownQuiet → t.DownQuiet
  pledges : s.KeepsPledges t

theorem State.Sound.follows {s t : State} (h : s.Sound) (hf : s.Follows t) : t.Sound := by
  have hslots := hf.slots.sound h.slots
  obtain ⟨hstate, _⟩ := id hf.session
  refine ⟨hf.queue, hf.lists.trackerSound hf.entries, hf.engine, hslots,
    h.link.of_prefix hf.session hf.completion hf.slots.replies hf.quiet, ?_⟩
  refine .of_pledged hf.lists hslots (fun hup p => ?_) fun hdown p => ?_ <;> rw [hstate] at *
  · rw [hf.pledges.up hup]
    exact h.credits.pledged_up h.tracker.lists h.slots hup p
  · rw [hf.pledges.down hdown]
    exact h.credits.pool_down hdown p

theorem State.QueueSound.of_pwq {s t : State} (h : s.QueueSound) (hq : t.pwq = s.pwq) : t.QueueSound := by
  rw [State.QueueSound, hq]
  exact h

theorem State.EngineSound.of_same {s t : State} (h : s.EngineSound) (hb : t.lbe = s.lbe) (hq : t.pwq = s.pwq)
    (hr : t.rt = s.rt) : t.EngineSound := by
  refine .of_fits (by rw [hb]; exact h.formed) ?_ fun i => by rw [hb, hr]; exact h.fitsEntry i
  rw [hb, State.headState, hq]
  exact h.fitsHead

/-- The law reads the Link Port, the queue, the tracker, the engine, the slots and, while DOWN, the notices. -/
theorem State.Sound.of_frame {s t : State} (h : s.Sound)
    (hf : t.link = s.link ∧ t.pwq = s.pwq ∧ t.rt = s.rt ∧ t.lbe = s.lbe) (hslots : s.KeepsSlots t)
    (hnotices : s.link.state = .down → t.nq = s.nq) : t.Sound := by
  obtain ⟨hlink, hq, hr, hb⟩ := hf
  have hoccupancy : t.occupancy = s.occupancy := congrArg List.length hq
  refine h.follows
    { queue := h.queue.of_pwq hq, lists := hr ▸ h.tracker.lists
      entries := fun i => by rw [hr, hoccupancy]; exact h.tracker.entries i
      engine := h.engine.of_same hb hq hr, slots := hslots, session := .of_eq hlink
      completion := .inr (by rw [hr])
      quiet := fun hdown hs => hs.of_entries hslots (hr ▸ hs.noCompletion) (hnotices hdown) (by rw [hlink])
        fun i hi => ?_
      pledges := .of_frame hlink fun p => ?_ }
  · rw [hr] at hi ⊢
    exact ⟨hi, rfl, rfl⟩
  · cases p with
    | posted => exact hoccupancy
    | nonPosted => exact congrArg List.length (by rw [hr])
    | management => exact congrArg List.length hslots.arrivals

/-- The blocks that the law does not read may change. -/
theorem State.Sound.of_mu {s t : State} (h : s.Sound)
    (hf : t.link = s.link ∧ t.pwq = s.pwq ∧ t.rt = s.rt ∧ t.lbe = s.lbe ∧ t.nq = s.nq ∧ t.mu = s.mu) : t.Sound := by
  obtain ⟨hlink, hq, hr, hb, hnq, hm⟩ := hf
  exact h.of_frame ⟨hlink, hq, hr, hb⟩ (.of_mu hm) fun _ => hnq

/-- R78: while the link is DOWN an entry in use is an ACTIVE orphan, so any other shows that the link is UP. -/
theorem State.Sound.up_of_entry {s : State} (h : s.Sound) {i : Fin 24} (hu : s.rt.entries[i].inUse = true)
    (hne : s.rt.entries[i].state ≠ .active ∨ s.rt.entries[i].orphan = false) : s.link.state = .up := by
  cases hstate : s.link.state with
  | up => rfl
  | down =>
    obtain ⟨hactive, horphan⟩ := (h.link.downQuiet hstate).orphans i hu
    rcases hne with hne | hne
    · exact absurd hactive hne
    · exact absurd horphan (ne_true_of_eq_false hne)

/-! ## Entries that change (R56) -/

/-- An unfinished entry takes another state, or goes on. -/
theorem State.Sound.replaceEntry {s : State} (h : s.Sound) {i : Fin 24} {e : TrackerEntry} {b : LocalBusEngine}
    (hfrom : s.rt.entries[i].Unfinished) (hto : e.Unfinished) (he : e.Sound s.occupancy)
    (hb : b.FollowsEntry s.lbe i e.state)
    (hup : s.link.state = .up ∨ e.state = s.rt.entries[i].state ∧ e.orphan = s.rt.entries[i].orphan) :
    State.Sound { s with rt := { s.rt with entries := s.rt.entries.set i e }, lbe := b } := by
  refine h.follows
    { queue := h.queue, lists := h.tracker.lists.replace hfrom hto, entries := fun j => ?_
      engine := h.engine.followEntry hb rfl rfl, slots := .of_mu rfl, session := .refl _
      completion := .inr (List.prefix_refl _)
      quiet := fun hdown hs => hs.of_entries (.of_mu rfl) hs.noCompletion rfl rfl fun j hj => ?_
      pledges := .of_frame rfl fun p => by cases p <;> rfl }
  · dsimp only
    rw [set_getElem]
    split
    · exact he
    · exact h.tracker.entries j
  · dsimp only at hj ⊢
    rw [set_getElem] at hj ⊢
    split at hj
    next hji =>
      obtain ⟨hstate, horphan⟩ := hup.resolve_left (by rw [hdown]; nofun)
      rw [if_pos hji, hji]
      exact ⟨hfrom.inUse, hstate, horphan⟩
    next hji =>
      rw [if_neg hji]
      exact ⟨hj, rfl, rfl⟩

/-- R67, R77: an unfinished entry that is no orphan completes. The entry may have changed before. -/
theorem State.Sound.completeEntry {s : State} (h : s.Sound) {i : Fin 24} {f : TrackerEntry} {b : LocalBusEngine}
    {st : Status} (hfrom : s.rt.entries[i].Unfinished) (ho : s.rt.entries[i].orphan = false)
    (hf : (f.completed st).Sound s.occupancy) (hb : b.FollowsEntry s.lbe i .complete) :
    State.Sound { s with
      rt := { s.rt with completion := s.rt.completion ++ [i], entries := s.rt.entries.set i (f.completed st) }
      lbe := b } := by
  have hup := h.up_of_entry hfrom.inUse (.inr ho)
  refine h.follows
    { queue := h.queue, lists := h.tracker.lists.complete hfrom rfl, entries := fun j => ?_
      engine := h.engine.followEntry (i := i) (e := f.completed st) hb rfl rfl, slots := .of_mu rfl, session := .refl _
      completion := .inr (List.prefix_append _ _), quiet := fun hdown => absurd (hup.symm.trans hdown) (by decide)
      pledges := .of_frame rfl fun p => by cases p <;> rfl }
  dsimp only
  rw [set_getElem]
  split
  · exact hf
  · exact h.tracker.entries j

theorem length_filter_ne {α : Type} [DecidableEq α] {l : List α} {a : α} (hnodup : l.Nodup) (ha : a ∈ l) :
    (l.filter (· != a)).length + 1 = l.length := by
  rw [← hnodup.erase_eq_filter, List.length_erase_add_one ha]

theorem State.freeEntry_release (i : Fin 24) (s : State) : (s.freeEntry i).link = (s.release .nonPosted).link := by
  rw [State.freeEntry_link, State.release_nonPosted]

/-- R169: of the state a release reads the Link Port alone. -/
theorem State.release_link_congr {s t : State} (p : Pool) (h : t.link = s.link) :
    (t.release p).link = (s.release p).link := by
  unfold State.release
  rw [h]
  split
  · rfl
  · exact h

/-- R71, R79: what becomes of an entry that may have changed before it becomes FREE. -/
theorem State.freeEntry_changed (i : Fin 24) (s : State) (f : TrackerEntry) (b : LocalBusEngine) :
    (State.freeEntry i { s with rt := { s.rt with entries := s.rt.entries.set i f }, lbe := b }).rt =
      { s.rt with
        order := s.rt.order.filter (· != i), completion := s.rt.completion.filter (· != i)
        entries := s.rt.entries.set i f.freed } := by
  have hset : (s.rt.entries.set i f)[i] = f := by rw [set_getElem, if_pos rfl]
  simp only [State.freeEntry_rt, hset, Vector.set_set]
  rfl

/-- R71, R79: an entry becomes FREE, after its response or without one. The entry may have changed before. -/
theorem State.Sound.freeEntry {s : State} (h : s.Sound) {i : Fin 24} (f : TrackerEntry) {b : LocalBusEngine}
    (hu : s.rt.entries[i].inUse = true) (hsent : s.link.tx = none ∨ i ∉ s.rt.completion)
    (hb : b.FollowsEntry s.lbe i .free) : State.Sound (State.freeEntry i
      { s with rt := { s.rt with entries := s.rt.entries.set i f }, lbe := b }) := by
  have hrt := s.freeEntry_changed i f b
  have hslots := (State.freeEntry_keepsSlots i
    { s with rt := { s.rt with entries := s.rt.entries.set i f }, lbe := b }).of_before (s := s) rfl
  have hlink := (State.freeEntry_release i
    { s with rt := { s.rt with entries := s.rt.entries.set i f }, lbe := b }).trans
    (State.release_link_congr (s := s) .nonPosted rfl)
  obtain ⟨hq, hlbe, _, hnq, _⟩ :=
    State.freeEntry_frame i { s with rt := { s.rt with entries := s.rt.entries.set i f }, lbe := b }
  generalize State.freeEntry i { s with rt := { s.rt with entries := s.rt.entries.set i f }, lbe := b } = t at *
  have hfollows : t.lbe.FollowsEntry s.lbe i .free := hlbe.symm ▸ hb
  have hentry (j : Fin 24) : t.rt.entries[j] = if j = i then f.freed else s.rt.entries[j] := by rw [hrt, set_getElem]
  have hoccupancy : t.occupancy = s.occupancy := congrArg List.length hq
  have hsession : s.link.SameSession t.link := by rw [hlink]; exact s.release_sameSession .nonPosted
  obtain ⟨_, htx, _⟩ := id hsession
  refine h.follows
    { queue := h.queue.of_pwq hq, lists := hrt ▸ h.tracker.lists.free i rfl
      entries := fun j => ?_, engine := h.engine.followEntry (e := f.freed) hfollows (by rw [hrt]) hq
      slots := hslots, session := hsession, completion := hsent.imp_right fun hi => ?_
      quiet := fun _ hs => hs.of_entries hslots ?_ hnq htx fun j hj => ?_
      pledges := .of_release (q := .nonPosted) hlink fun p => ?_ }
  · rw [hentry, hoccupancy]
    split
    · exact f.freed_sound _
    · exact h.tracker.entries j
  · rw [hrt]
    dsimp only
    rw [List.filter_eq_self.mpr fun j hj => bne_iff_ne.mpr (ne_of_mem_of_not_mem hj hi)]
  · rw [hrt]
    dsimp only
    rw [hs.noCompletion]
    rfl
  · rw [hentry] at hj ⊢
    split at hj
    next => cases hj
    next hji => rw [if_neg hji]; exact ⟨hj, rfl, rfl⟩
  · cases p with
    | posted => exact hoccupancy
    | nonPosted =>
      have hmem := (h.tracker.lists.orderMem i).mpr hu
      simp only [State.held, hrt, if_true]
      exact length_filter_ne h.tracker.lists.orderNodup hmem
    | management => exact congrArg List.length hslots.arrivals

end Sys2Proof.Machine
end

section
/-! PROOF. A transaction's item in a sound state: what the engine looks like after a grant, an acknowledged word, a
release or a timer's end, and the head of the queue that changes or retires. -/

namespace Sys2Proof.Machine

/-! ## The engine that runs an entry (R83, R86, R96, R100) -/

section
variable {s : State} {i : Fin 24}

/-- The parity marks are no part of the law. -/
theorem LocalBusEngine.Formed.of_marks {b : LocalBusEngine} (h : b.Formed) (m : Vector Bool 24) :
    LocalBusEngine.Formed { b with parityMarks := m } := { h with }

/-- R82: at most one item is current. -/
theorem CurrentItem.entry_ne {i j : Fin 24} (h : j ≠ i) : (some (.entry i) : Option CurrentItem) ≠ some (.entry j) := by
  rintro ⟨⟩
  exact h rfl

theorem State.EngineSound.entryTimer_none (h : s.EngineSound) (hne : s.rt.entries[i].state ≠ .backoff) :
    s.lbe.entryTimers[i] = none := Option.not_isSome_iff_eq_none.mp fun hruns => hne ((h.entryTimer i).mp hruns)

/-- Only the parity marks change, and the entry's new state is the old one to the engine. -/
theorem State.EngineSound.follows_marks (h : s.EngineSound) {st : EntryState}
    (hactive : st = .active ↔ s.rt.entries[i].state = .active)
    (hbackoff : st = .backoff ↔ s.rt.entries[i].state = .backoff) (m : Vector Bool 24) :
    LocalBusEngine.FollowsEntry { s.lbe with parityMarks := m } s.lbe i st where
  formed := h.formed.of_marks m
  fits := ⟨(h.entryActive i).trans hactive.symm, (h.entryTimer i).trans hbackoff.symm⟩
  head := Iff.rfl
  headTimer := rfl
  others _ _ := ⟨Iff.rfl, rfl⟩

/-- R83, R100: the transaction of the entry is over, and the entry is not in BACKOFF. -/
theorem State.EngineSound.follows_released (h : s.EngineSound) (hc : s.lbe.current = some (.entry i)) {st : EntryState}
    (hactive : st ≠ .active) (hbackoff : st ≠ .backoff) (m : Vector Bool 24) :
    (LocalBusEngine.released { s.lbe with parityMarks := m }).FollowsEntry s.lbe i st where
  formed := (h.formed.of_marks m).released
  fits := by
    have hnone := h.entryTimer_none (i := i) (by rw [(h.entryActive i).mp hc]; decide)
    exact ⟨iff_of_false nofun hactive, iff_of_false (ne_true_of_eq_false (congrArg Option.isSome hnone)) hbackoff⟩
  head := iff_of_false nofun (by rw [hc]; nofun)
  headTimer := rfl
  others _ hj := ⟨iff_of_false nofun (by rw [hc]; exact CurrentItem.entry_ne hj), rfl⟩

/-- R68: the transaction is over, and the entry's backoff timer starts. -/
theorem State.EngineSound.follows_backoff (h : s.EngineSound) (hc : s.lbe.current = some (.entry i)) (n : Nat) :
    LocalBusEngine.FollowsEntry { s.lbe.released with entryTimers := s.lbe.entryTimers.set i (some n) } s.lbe i
      .backoff where
  formed := { h.formed.released with }
  fits := ⟨iff_of_false nofun nofun, iff_of_true (by dsimp only; rw [set_getElem, if_pos rfl]; rfl) rfl⟩
  head := iff_of_false nofun (by rw [hc]; nofun)
  headTimer := rfl
  others _ hj := ⟨iff_of_false nofun (by rw [hc]; exact CurrentItem.entry_ne hj), by
    dsimp only; rw [set_getElem, if_neg hj]⟩

/-- R65, R86, R88: the entry is granted. -/
theorem State.EngineSound.follows_grant (h : s.EngineSound) (hidle : s.lbe.engine = .idle)
    (hready : s.rt.entries[i].state = .ready) (n : Nat) (m : Vector Bool 24) :
    LocalBusEngine.FollowsEntry { s.lbe with
      engine := .requesting, current := some (.entry i), streak := 0, accessTimer := some n, parityMarks := m }
      s.lbe i .active where
  formed := by
    obtain ⟨hbeat, hcycle⟩ := h.formed.drives_nothing (by rw [hidle]; decide)
    exact .of_requesting rfl rfl rfl hbeat hcycle (Nat.zero_le _)
  fits := by
    have hnone := h.entryTimer_none (i := i) (by rw [hready]; decide)
    exact ⟨iff_of_true rfl rfl, iff_of_false (ne_true_of_eq_false (congrArg Option.isSome hnone)) nofun⟩
  head := iff_of_false nofun (by rw [h.idleCurrent.mp hidle]; nofun)
  headTimer := rfl
  others _ hj := ⟨iff_of_false (CurrentItem.entry_ne hj) (by rw [h.idleCurrent.mp hidle]; nofun), rfl⟩

/-- R69: the entry's interval is over. -/
theorem State.EngineSound.follows_expiry (h : s.EngineSound) (hbackoff : s.rt.entries[i].state = .backoff) :
    LocalBusEngine.FollowsEntry { s.lbe with entryTimers := s.lbe.entryTimers.set i none } s.lbe i .ready where
  formed := { h.formed with }
  fits := by
    refine ⟨iff_of_false (fun hc => ?_) nofun, iff_of_false (by dsimp only; rw [set_getElem, if_pos rfl]; nofun) nofun⟩
    exact absurd (hbackoff.symm.trans ((h.entryActive i).mp hc)) (by decide)
  head := Iff.rfl
  headTimer := rfl
  others _ hj := ⟨Iff.rfl, by dsimp only; rw [set_getElem, if_neg hj]⟩

end

/-! ## The engine that runs the head -/

section
variable {s : State} {r : WriteRecord} {rest : List WriteRecord}

theorem State.headState_cons (hq : s.pwq = r :: rest) : s.headState = some r.state := by
  rw [headState, hq]
  rfl

theorem State.EngineSound.headTimer_none (h : s.EngineSound) (hne : s.headState ≠ some .backoff) :
    s.lbe.headTimer = none := Option.not_isSome_iff_eq_none.mp fun hruns => hne (h.fitsHead.backoff.mp hruns)

/-- R46, R47, R100: the transaction of the head is over, and the head is not in BACKOFF. -/
theorem State.EngineSound.followsHead_released (h : s.EngineSound) (hc : s.lbe.current = some .head)
    {st : Option RecordState} (hactive : st ≠ some .active) (hbackoff : st ≠ some .backoff) :
    s.lbe.released.FollowsHead s.lbe st where
  formed := h.formed.released
  fits := by
    have hnone := h.headTimer_none (by rw [h.fitsHead.active.mp hc]; nofun)
    exact ⟨iff_of_false nofun hactive, iff_of_false (ne_true_of_eq_false (congrArg Option.isSome hnone)) hbackoff⟩
  entries _ := iff_of_false nofun (by rw [hc]; nofun)
  timers := rfl

/-- R44: the transaction is over, and the head's backoff timer starts. -/
theorem State.EngineSound.followsHead_backoff (h : s.EngineSound) (hc : s.lbe.current = some .head) (n : Nat) :
    LocalBusEngine.FollowsHead { s.lbe.released with headTimer := some n } s.lbe (some .backoff) where
  formed := { h.formed.released with }
  fits := ⟨iff_of_false nofun nofun, iff_of_true rfl rfl⟩
  entries _ := iff_of_false nofun (by rw [hc]; nofun)
  timers := rfl

/-- R42, R86, R88: the head is granted. -/
theorem State.EngineSound.followsHead_grant (h : s.EngineSound) (hidle : s.lbe.engine = .idle)
    (hqueued : s.headState = some .queued) {n streak : Nat} (hstreak : streak ≤ 15) :
    LocalBusEngine.FollowsHead { s.lbe with
      engine := .requesting, current := some .head, accessTimer := some n, streak := streak } s.lbe (some .active) where
  formed := by
    obtain ⟨hbeat, hcycle⟩ := h.formed.drives_nothing (by rw [hidle]; decide)
    exact .of_requesting rfl rfl rfl hbeat hcycle hstreak
  fits := by
    have hnone := h.headTimer_none (by rw [hqueued]; nofun)
    exact ⟨iff_of_true rfl rfl, iff_of_false (ne_true_of_eq_false (congrArg Option.isSome hnone)) nofun⟩
  entries _ := iff_of_false nofun (by rw [h.idleCurrent.mp hidle]; nofun)
  timers := rfl

/-- R45: the head's interval is over. -/
theorem State.EngineSound.followsHead_expiry (h : s.EngineSound) (hbackoff : s.headState = some .backoff) :
    LocalBusEngine.FollowsHead { s.lbe with headTimer := none } s.lbe (some .queued) where
  formed := { h.formed with }
  fits := by
    refine ⟨iff_of_false (fun hc => ?_) nofun, iff_of_false nofun nofun⟩
    exact absurd (hbackoff.symm.trans (h.fitsHead.active.mp hc)) (by decide)
  entries _ := Iff.rfl
  timers := rfl

/-- The head stays in its state. -/
theorem State.EngineSound.followsHead_same (h : s.EngineSound) : s.lbe.FollowsHead s.lbe s.headState :=
  ⟨h.formed, h.fitsHead, fun _ => Iff.rfl, rfl⟩

/-! ## The head that changes or retires (R37, R48) -/

/-- R37: what is behind the head has not been on the bus. -/
theorem State.QueueSound.rest_queued (h : s.QueueSound) (hq : s.pwq = r :: rest) {st : RecordState}
    (hst : st ≠ .queued) : rest.head?.map WriteRecord.state ≠ some st := by
  obtain ⟨_, _, huntouched⟩ := h
  rw [hq] at huntouched
  cases rest with
  | nil => nofun
  | cons r' rest' =>
    obtain ⟨hqueued, _⟩ := huntouched r' List.mem_cons_self
    intro heq
    exact hst ((Option.some.inj heq).symm.trans hqueued)

/-- R37: the queue after its head has changed. -/
theorem State.QueueSound.replaceHead {t : State} (h : s.QueueSound) (hq : s.pwq = r :: rest) {r' : WriteRecord}
    (hr : r'.InRange) (ht : t.pwq = r' :: rest) : t.QueueSound := by
  obtain ⟨hlength, hrange, huntouched⟩ := h
  rw [hq] at hlength hrange huntouched
  rw [State.QueueSound, ht]
  exact ⟨hlength, List.forall_mem_cons.mpr ⟨hr, (List.forall_mem_cons.mp hrange).2⟩, huntouched⟩

/-- R37: the queue after its head has left. -/
theorem State.QueueSound.dropHead {t : State} (h : s.QueueSound) (hq : s.pwq = r :: rest) (ht : t.pwq = rest) :
    t.QueueSound := by
  obtain ⟨hlength, hrange, huntouched⟩ := h
  rw [hq] at hlength hrange huntouched
  rw [State.QueueSound, ht]
  exact ⟨(Nat.le_succ _).trans hlength, (List.forall_mem_cons.mp hrange).2,
    fun x hx => huntouched x (List.mem_of_mem_tail hx)⟩

theorem State.Sound.replaceHead (h : s.Sound) (hq : s.pwq = r :: rest) {r' : WriteRecord} {b : LocalBusEngine}
    (hr : r'.InRange) (hb : b.FollowsHead s.lbe (some r'.state)) :
    State.Sound { s with pwq := r' :: rest, lbe := b } := by
  have hoccupancy : State.occupancy { s with pwq := r' :: rest, lbe := b } = s.occupancy := by
    rw [State.occupancy, State.occupancy, hq]
    rfl
  refine h.follows
    { queue := h.queue.replaceHead hq hr rfl, lists := h.tracker.lists
      entries := fun i => by rw [hoccupancy]; exact h.tracker.entries i
      engine := h.engine.followHead hb (fun _ => Iff.rfl) fun _ => Iff.rfl, slots := .of_mu rfl, session := .refl _
      completion := .inr (List.prefix_refl _)
      quiet := fun _ hs => hs.of_entries (.of_mu rfl) hs.noCompletion rfl rfl fun i hi => ⟨hi, rfl, rfl⟩
      pledges := .of_frame rfl fun p => ?_ }
  cases p with
  | posted => exact hoccupancy
  | nonPosted => rfl
  | management => rfl

/-- R63: of a retirement an entry shows its engine and its lists nothing. -/
theorem TrackerEntry.oneRetired_kind (e : TrackerEntry) : e.oneRetired.inUse = e.inUse ∧
    (e.oneRetired.state = .complete ↔ e.state = .complete) ∧ (e.oneRetired.state = .active ↔ e.state = .active) ∧
    (e.oneRetired.state = .backoff ↔ e.state = .backoff) := by
  unfold oneRetired inUse
  split
  next h =>
    dsimp only
    rw [h]
    split <;> decide
  next => simp

/-- R46, R48: the head retires. -/
theorem State.Sound.retireHead (h : s.Sound) (hq : s.pwq = r :: rest) {b : LocalBusEngine} (g : BitVec 8)
    (hb : b.FollowsHead s.lbe (rest.head?.map WriteRecord.state)) :
    State.Sound (State.retirement g { s with pwq := rest, lbe := b }) := by
  have hslots := (State.retirement_keepsSlots g { s with pwq := rest, lbe := b }).of_before (s := s) rfl
  have hlink := (State.retirement_link g { s with pwq := rest, lbe := b }).trans
    (State.release_link_congr (s := s) .posted rfl)
  have hentry (i : Fin 24) := State.retirement_entry g i { s with pwq := rest, lbe := b }
  obtain ⟨hpwq, hlbe, _, hnq, _, _, _, horder, hcompletion, _⟩ :=
    State.retirement_frame g { s with pwq := rest, lbe := b }
  generalize State.retirement g { s with pwq := rest, lbe := b } = t at *
  dsimp only at hentry hpwq hnq horder hcompletion
  have hfollows : t.lbe.FollowsHead s.lbe t.headState := by
    rw [hlbe, State.headState, hpwq]
    exact hb
  have hsession : s.link.SameSession t.link := by rw [hlink]; exact s.release_sameSession .posted
  obtain ⟨_, htx, _⟩ := id hsession
  have hkind (i : Fin 24) := s.rt.entries[i].oneRetired_kind
  have hoccupancy : s.occupancy = t.occupancy + 1 := by
    rw [State.occupancy, State.occupancy, hpwq, hq]
    rfl
  refine h.follows
    { queue := h.queue.dropHead hq hpwq
      lists := h.tracker.lists.of_same horder hcompletion (fun i => ?_) fun i => ?_
      entries := fun i => ?_, engine := h.engine.followHead hfollows (fun i => ?_) fun i => ?_
      slots := hslots, session := hsession, completion := .inr (by rw [hcompletion])
      quiet := fun _ hs => hs.of_entries hslots (hcompletion.trans hs.noCompletion) hnq htx fun i hi => ?_
      pledges := .of_release (q := .posted) hlink fun p => ?_ }
  · obtain ⟨hinUse, _⟩ := hkind i
    rw [hentry, hinUse]
  · obtain ⟨_, hcomplete, _⟩ := hkind i
    rw [hentry, hcomplete]
  · rw [hentry]
    exact (hoccupancy ▸ h.tracker.entries i).oneRetired
  · obtain ⟨_, _, hactive, _⟩ := hkind i
    rw [hentry, hactive]
  · obtain ⟨_, _, _, hbackoff⟩ := hkind i
    rw [hentry, hbackoff]
  · obtain ⟨hinUse, _⟩ := hkind i
    rw [hentry, hinUse] at hi
    obtain ⟨hactive, _⟩ := hs.orphans i hi
    rw [hentry, TrackerEntry.oneRetired_unordered (by rw [hactive]; decide)]
    exact ⟨hi, rfl, rfl⟩
  · cases p with
    | posted => exact hoccupancy.symm
    | nonPosted => exact congrArg List.length horder
    | management => exact congrArg List.length hslots.arrivals

end

end Sys2Proof.Machine
end

section
/-! PROOF. What follows a transaction, an error or a session in a sound state: the item handed back to its store (R67, R79,
R100), the entry to HALTED (R52, R76, R152), error reports (R108, R119, R120) and the end of a session (R159). -/

namespace Sys2Proof.Machine

/-! ## The item handed back (R67, R79, R100) -/

section
variable {s : State} {i : Fin 24}

/-- Table 5-1: the item that the engine runs is the queue's head, and it is ACTIVE. -/
theorem State.Sound.activeHead (h : s.Sound) (hc : s.lbe.current = some .head) :
    ∃ (r : WriteRecord) (rest : List WriteRecord), s.pwq = r :: rest ∧ r.state = .active := h.engine.headActive.mp hc

theorem State.Sound.activeEntry (h : s.Sound) (hc : s.lbe.current = some (.entry i)) :
    s.rt.entries[i].state = .active := (h.engine.entryActive i).mp hc

theorem State.Sound.activeUnfinished (h : s.Sound) (hc : s.lbe.current = some (.entry i)) :
    s.rt.entries[i].Unfinished := TrackerEntry.unfinished_of_state (h.activeEntry hc) (by decide)

/-- R70: only a COMPLETE entry is on the completion list. -/
theorem State.Sound.not_completed (h : s.Sound) (hopen : s.rt.entries[i].Unfinished) : i ∉ s.rt.completion :=
  fun hi => hopen.2 ((h.tracker.completionMem i).mp hi)

/-- R46, R47: the head is handed back, and retires. -/
theorem State.Sound.handedBack_head (h : s.Sound) (hc : s.lbe.current = some .head) (st : Status) :
    ((s.releaseBus.handBack st).clearCurrent).Sound := by
  obtain ⟨r, rest, hq, _⟩ := h.activeHead hc
  rw [State.handedBack_head st hc hq]
  exact h.retireHead hq _ (h.engine.followsHead_released hc (h.queue.rest_queued hq (by decide))
    (h.queue.rest_queued hq (by decide)))

/-- R67, R79: an entry that a last word may have made `f` is handed back: it completes, or becomes FREE. -/
theorem State.Sound.handedBack_changed (h : s.Sound) (hc : s.lbe.current = some (.entry i)) {f : TrackerEntry}
    (m : Vector Bool 24) {st : Status} (hf : f.RequestSound) (ho : f.orphan = s.rt.entries[i].orphan)
    (hok : st = .ok → f.progress = f.length) :
    State.Sound (State.clearCurrent (State.handBack st (State.releaseBus { s with
      rt := { s.rt with entries := s.rt.entries.set i f }, lbe := { s.lbe with parityMarks := m } }))) := by
  have hopen := h.activeUnfinished hc
  have hset : (s.rt.entries.set i f)[i] = f := by rw [set_getElem, if_pos rfl]
  cases horphan : f.orphan with
  | false =>
    rw [State.handedBack_changedEntry s f { s.lbe with parityMarks := m } st hc horphan]
    exact h.completeEntry hopen (ho ▸ horphan) (f.completed_sound hf horphan hok _)
      (h.engine.follows_released hc (by decide) (by decide) m)
  | true =>
    rw [State.handedBack_orphan (s := { s with
      rt := { s.rt with entries := s.rt.entries.set i f }, lbe := { s.lbe with parityMarks := m } }) st hc
      (by dsimp only; rw [hset]; exact horphan)]
    exact h.freeEntry f hopen.inUse (.inr (h.not_completed hopen))
      (h.engine.follows_released hc (by decide) (by decide) m)

/-- R47, R67, R79: after a failure the item is handed back as it stands. -/
theorem State.Sound.handedBack_failed (h : s.Sound) {c : CurrentItem} (hc : s.lbe.current = some c) {st : Status}
    (hst : st ≠ .ok) : ((s.releaseBus.handBack st).clearCurrent).Sound := by
  cases c with
  | head => exact h.handedBack_head hc st
  | entry i =>
    have hback := h.handedBack_changed hc s.lbe.parityMarks
      ((h.tracker.entries i).request (h.activeUnfinished hc).inUse) rfl fun hok => absurd hok hst
    have hsame : s.rt.entries.set i s.rt.entries[i] = s.rt.entries := Vector.set_getElem_self i.isLt
    rw [hsame] at hback
    exact hback

end

/-! ## The entry to HALTED (R52, R76, R152) -/

section
variable {s : State}

theorem TrackerEntry.waits_iff (e : TrackerEntry) :
    e.waits = true ↔ e.state = .ordered ∨ e.state = .ready ∨ e.state = .backoff := by
  simp [waits, or_assoc]

theorem TrackerEntry.waits_unfinished {e : TrackerEntry} (h : e.waits = true) : e.Unfinished := by
  rcases e.waits_iff.mp h with hst | hst | hst <;> exact unfinished_of_state hst (by decide)

theorem TrackerEntry.waits_inactive {e : TrackerEntry} (h : e.state = .active) : e.waits = false := by
  rw [waits, h]
  rfl

/-- R76: an entry after the entry to HALTED. -/
def TrackerEntry.halted (e : TrackerEntry) : TrackerEntry := if e.waits then e.completed .refusedHalted else e

theorem State.enterHalted_halted (i : Fin 24) (s : State) : s.enterHalted.rt.entries[i] = s.rt.entries[i].halted :=
  s.enterHalted_entry i

/-- R76: an entry that waited is COMPLETE, and none is in BACKOFF. -/
theorem TrackerEntry.halted_kind (e : TrackerEntry) : e.halted.inUse = e.inUse ∧
    (e.halted.state = .complete ↔ e.waits = true ∨ e.state = .complete) ∧
    (e.halted.state = .active ↔ e.state = .active) ∧ e.halted.state ≠ .backoff := by
  cases h : e.state <;> simp [halted, waits, inUse, completed, h] <;> decide

/-- R57, R76: the entries that waited are no orphans. -/
theorem TrackerEntry.Sound.halted {e : TrackerEntry} {n : Nat} (h : e.Sound n) (m : Nat) : e.halted.Sound m := by
  unfold TrackerEntry.halted
  split
  next hwaits =>
    refine completed_sound (h.request (waits_unfinished hwaits).inUse) (eq_false_of_ne_true fun ho => ?_)
      (fun hok => absurd hok (by decide)) m
    exact ne_true_of_eq_false (waits_inactive (h.orphanActive ho)) hwaits
  next hwaits =>
    have hcount : e.writesAhead = 0 := h.unordered fun hordered => hwaits (e.waits_iff.mpr (.inl hordered))
    exact h.of_count (by rw [hcount]; exact Nat.zero_le m)

/-- R52: the ACTIVE head stays in the queue, and it alone. -/
theorem State.QueueSound.enterHalted (h : s.QueueSound) : s.enterHalted.QueueSound := by
  have htail := filter_active_tail h.tailInactive
  obtain ⟨hlength, hrange, _⟩ := h
  rw [State.QueueSound, State.enterHalted_pwq, htail]
  exact ⟨(List.length_filter_le _ _).trans hlength, fun r hr => hrange r (List.mem_filter.mp hr).1, nofun⟩

/-- R52: an ACTIVE head stays the head. -/
theorem State.enterHalted_headState (h : s.QueueSound) :
    s.enterHalted.headState = if s.headState = some .active then some .active else none := by
  have htail := h.tailInactive
  unfold State.headState
  rw [State.enterHalted_pwq]
  cases hq : s.pwq with
  | nil => rfl
  | cons r rest =>
    rw [hq] at htail
    have hrest : rest.filter (fun r => r.state == .active) = [] :=
      List.filter_eq_nil_iff.mpr fun x hx hactive => htail x hx (eq_of_beq hactive)
    rw [List.filter_cons, hrest]
    cases hr : r.state <;> simp [hr]

/-- R76: the completions join the list. -/
theorem RequestTracker.ListsAgree.enterHalted (h : s.rt.ListsAgree) : s.enterHalted.rt.ListsAgree := by
  obtain ⟨_, _, _, _, horder, _⟩ := s.enterHalted_frame
  refine ⟨?_, fun i => ?_, ?_, fun i => ?_⟩
  · rw [horder]
    exact h.orderNodup
  · obtain ⟨hinUse, _⟩ := s.rt.entries[i].halted_kind
    rw [horder, State.enterHalted_halted, hinUse]
    exact h.orderMem i
  · rw [State.enterHalted_completion]
    refine List.nodup_append'.mpr ⟨h.completionNodup, h.orderNodup.filter _, fun i hi hwaits => ?_⟩
    exact (TrackerEntry.waits_unfinished (List.mem_filter.mp hwaits).2).2 ((h.completionMem i).mp hi)
  · obtain ⟨_, hcomplete, _⟩ := s.rt.entries[i].halted_kind
    rw [State.enterHalted_completion, State.enterHalted_halted, hcomplete, List.mem_append, List.mem_filter,
      h.completionMem, h.orderMem, or_comm]
    exact or_congr_left (and_iff_right_of_imp fun hwaits => (TrackerEntry.waits_unfinished hwaits).inUse)

/-- R96: the backoff timers stop; the transaction in progress goes on. -/
theorem State.EngineSound.enterHalted (h : s.EngineSound) (hq : s.QueueSound) : s.enterHalted.EngineSound := by
  have hhead := State.enterHalted_headState hq
  have hlbe := h.enterHalted_lbe
  refine .of_fits ?_ ⟨?_, ?_⟩ fun i => ⟨?_, ?_⟩
  · rw [hlbe]
    exact { h.formed with }
  · rw [hlbe, hhead]
    refine h.fitsHead.active.trans ?_
    split
    next hactive => exact iff_of_true hactive rfl
    next hactive => exact iff_of_false hactive nofun
  · rw [hlbe, hhead]
    exact iff_of_false nofun (by split <;> nofun)
  · obtain ⟨_, _, hactive, _⟩ := s.rt.entries[i].halted_kind
    rw [hlbe, State.enterHalted_halted, hactive]
    exact h.entryActive i
  · obtain ⟨_, _, _, hbackoff⟩ := s.rt.entries[i].halted_kind
    rw [hlbe, State.enterHalted_halted]
    refine iff_of_false (fun hruns => ?_) hbackoff
    rw [show (Vector.replicate 24 (none : Option Nat))[i] = none from Vector.getElem_replicate i.isLt] at hruns
    cases hruns

/-- R52, R169: each discarded record is replaced by a return. -/
theorem State.enterHalted_keepsPledges (s : State) : s.KeepsPledges s.enterHalted where
  up hup p := by
    rw [State.pledged, State.pledged, State.enterHalted_link, if_pos hup]
    obtain ⟨_, _, _, _, horder, _, _, _, harrivals, _⟩ := s.enterHalted_frame
    cases p with
    | posted =>
      have hsplit := List.length_eq_length_filter_add (l := s.pwq) fun r => r.state == .active
      simp only [State.held, LinkPort.pool, State.enterHalted_pwq]
      have hgone : (s.pwq.filter fun r => !(r.state == .active)).length = s.discards.length := rfl
      omega
    | nonPosted => simp only [State.held, LinkPort.pool, horder]
    | management => simp only [State.held, LinkPort.pool, harrivals]
  down hdown p := by rw [State.enterHalted_link, if_neg (by rw [hdown]; decide)]

theorem State.enterHalted_sameSession (s : State) : s.link.SameSession s.enterHalted.link := by
  simp [LinkPort.SameSession]

/-- R78: while the link is DOWN no entry waits. -/
theorem State.DownQuiet.enterHalted (h : s.DownQuiet) (ht : s.rt.ListsAgree) : s.enterHalted.DownQuiet := by
  obtain ⟨hnq, _, _, _, _⟩ := s.enterHalted_frame
  obtain ⟨_, htx, _⟩ := s.enterHalted_sameSession
  have hwaits {i : Fin 24} (hi : s.rt.entries[i].inUse = true) : s.rt.entries[i].waits = false :=
    TrackerEntry.waits_inactive (h.orphans i hi).1
  refine h.of_entries s.enterHalted_keepsSlots ?_ hnq htx fun i hi => ?_
  · rw [State.enterHalted_completion, h.noCompletion]
    exact List.filter_eq_nil_iff.mpr fun i hi => ne_true_of_eq_false (hwaits ((ht.orderMem i).mp hi))
  · obtain ⟨hinUse, _⟩ := s.rt.entries[i].halted_kind
    rw [State.enterHalted_halted] at hi ⊢
    rw [hinUse] at hi
    rw [TrackerEntry.halted, if_neg (ne_true_of_eq_false (hwaits hi))]
    exact ⟨hi, rfl, rfl⟩

theorem State.Sound.enterHalted (h : s.Sound) : s.enterHalted.Sound :=
  h.follows
    { queue := h.queue.enterHalted, lists := h.tracker.lists.enterHalted
      entries := fun i => by rw [State.enterHalted_halted]; exact (h.tracker.entries i).halted _
      engine := h.engine.enterHalted h.queue, slots := s.enterHalted_keepsSlots, session := s.enterHalted_sameSession
      completion := .inr (by rw [State.enterHalted_completion]; exact List.prefix_append _ _)
      quiet := fun _ hs => hs.enterHalted h.tracker.lists, pledges := s.enterHalted_keepsPledges }

/-! ## Error reports (R108, R119, R120) -/

theorem State.Sound.fatalRecorded (h : s.Sound) : s.fatalRecorded.Sound := by
  unfold State.fatalRecorded
  split
  · exact h.enterHalted
  · exact h

/-- R128: while the link is DOWN no notice is taken. -/
theorem State.Sound.requestNotice (h : s.Sound) (v : Severity) (k : ErrorKind) (o : CaptureOutcome) :
    (s.requestNotice v k o).Sound := by
  refine h.of_frame (by simp) (.of_mu (by simp)) fun hdown => ?_
  rw [State.requestNotice, hdown]

theorem State.Sound.afterRecording (h : s.Sound) (v : Severity) (k : ErrorKind) (o : CaptureOutcome) :
    (s.afterRecording v k o).Sound := by
  have hnoticed : (if s.ecu.notifies v then s.requestNotice v k o else s).Sound := by
    split
    · exact h.requestNotice v k o
    · exact h
  unfold State.afterRecording
  dsimp only
  split
  · exact hnoticed.fatalRecorded
  · exact hnoticed

theorem State.Sound.report (h : s.Sound) (r : Report) : (s.report r).Sound := by
  unfold State.report
  split
  · exact h
  · refine State.Sound.afterRecording ?_ _ _ _
    exact h.of_mu ⟨rfl, rfl, rfl, rfl, rfl, rfl⟩

theorem State.Sound.reportOption (h : s.Sound) (r : Option Report) : (s.reportOption r).Sound := by
  cases r with
  | none => exact h
  | some r => exact h.report r

/-! ## The end of a session (R78, R143, R159) -/

/-- R78: an entry in use after a session end is an ACTIVE orphan. -/
theorem TrackerEntry.sessionEnded_orphan {e : TrackerEntry} (h : e.sessionEnded.inUse = true) :
    e.sessionEnded.state = .active ∧ e.sessionEnded.orphan = true := by
  cases hst : e.state <;> simp [sessionEnded, freedAtSessionEnd, inUse, freed, hst] at h ⊢

theorem State.SlotsSound.of_empty (hslots : ∀ k : Fin 2, s.mu.slots[k] = .free) (harrivals : s.mu.arrivals = [])
    (hreplies : s.mu.replies = []) : s.SlotsSound where
  arrivalsNodup := harrivals ▸ List.nodup_nil
  arrivalsMem k := by rw [harrivals, hslots]; exact iff_of_false List.not_mem_nil nofun
  repliesNodup := hreplies ▸ List.nodup_nil
  repliesMem k := by rw [hreplies, hslots]; exact iff_of_false List.not_mem_nil nofun

/-- The entries' backoff timers have no part in the engine's transaction. -/
theorem LocalBusEngine.Formed.of_timers {b : LocalBusEngine} (h : b.Formed) (timers : Vector (Option Nat) 24) :
    LocalBusEngine.Formed { b with entryTimers := timers } := { h with }

/-- R78, R96: the entries in BACKOFF are freed and their timers stop; an ACTIVE one goes on as an orphan. -/
theorem State.EngineSound.sessionEnded {t : State} (h : s.EngineSound) (hq : t.pwq = s.pwq)
    (hr : t.rt.entries = mapAll TrackerEntry.sessionEnded s.rt.entries)
    (hb : t.lbe = { s.lbe with entryTimers := Vector.ofFn fun i : Fin 24 =>
      if s.rt.entries[i].state = .backoff then none else s.lbe.entryTimers[i] }) : t.EngineSound := by
  have hhead : t.headState = s.headState := by rw [State.headState, State.headState, hq]
  refine .of_fits (by rw [hb]; exact h.formed.of_timers _)
    (by rw [hb, hhead]; exact ⟨h.fitsHead.active, h.fitsHead.backoff⟩) fun i => ?_
  · obtain ⟨hactive, _, hbackoff⟩ := s.rt.entries[i].sessionEnded_kind
    rw [hb, hr, mapAll_getElem]
    refine ⟨(h.entryActive i).trans hactive.symm, iff_of_false (fun hruns => ?_) hbackoff⟩
    simp only [Fin.getElem_fin, Vector.getElem_ofFn] at hruns
    split at hruns
    next => cases hruns
    next hnot => exact hnot ((h.entryTimer i).mp hruns)

/-- R160: what a session end leaves in the slots, the Notice Queue and the entries. -/
theorem State.DownQuiet.of_sessionEnd {t : State} (hcompletion : t.rt.completion = [])
    (hslots : ∀ k : Fin 2, t.mu.slots[k] = .free) (hnotices : t.nq = []) (htx : t.link.tx = none)
    (hentries : t.rt.entries = mapAll TrackerEntry.sessionEnded s.rt.entries) : t.DownQuiet where
  noCompletion := hcompletion
  slotsFree := hslots
  noNotice := hnotices
  noTx := htx
  orphans i hi := by
    rw [hentries, mapAll_getElem] at hi ⊢
    exact TrackerEntry.sessionEnded_orphan hi

/-- R78. -/
theorem State.endSession_rt (h : s.link.state = .up) : s.endSession.rt = { s.rt with
    entries := mapAll TrackerEntry.sessionEnded s.rt.entries
    order := s.rt.order.filter fun i => !s.rt.entries[i].freedAtSessionEnd
    completion := [] } := by rw [State.endSession_up h]

theorem State.endSession_lbe (h : s.link.state = .up) : s.endSession.lbe = { s.lbe with
    entryTimers := Vector.ofFn fun i : Fin 24 =>
      if s.rt.entries[i].state = .backoff then none else s.lbe.entryTimers[i] } := by rw [State.endSession_up h]

theorem State.Sound.endSession (h : s.Sound) : s.endSession.Sound := by
  cases hup : s.link.state with
  | down => rw [State.endSession_down hup]; exact h
  | up =>
    have hr := State.endSession_rt hup
    have hb := State.endSession_lbe hup
    obtain ⟨hq, hl, hm, hn⟩ : s.endSession.pwq = s.pwq ∧ s.endSession.link = s.link.ended ∧
        s.endSession.mu = s.mu.sessionEnded ∧ s.endSession.nq = [] := by
      rw [State.endSession_up hup]
      exact ⟨rfl, rfl, rfl, rfl⟩
    have hentries : s.endSession.rt.entries = mapAll TrackerEntry.sessionEnded s.rt.entries := by rw [hr]
    have hslots (k : Fin 2) : s.endSession.mu.slots[k] = .free := by rw [hm]; exact Vector.getElem_replicate k.isLt
    have hlists : s.endSession.rt.ListsAgree := hr ▸ h.tracker.lists.sessionEnded
    have hsound (i : Fin 24) : s.endSession.rt.entries[i].Sound s.endSession.occupancy := by
      rw [hentries, mapAll_getElem, State.occupancy, hq]
      exact (h.tracker.entries i).sessionEnded
    generalize s.endSession = t at *
    refine ⟨h.queue.of_pwq hq, hlists.trackerSound hsound, h.engine.sessionEnded hq hentries hb,
      .of_empty hslots (by rw [hm]; rfl) (by rw [hm]; rfl),
      ⟨fun _ => .of_sessionEnd (by rw [hr]) hslots hn (by rw [hl]; rfl) hentries, ?_, ?_, ?_⟩, fun p => ?_⟩
    · rw [State.TxSound, hl]; trivial
    · rw [hl]; exact Nat.zero_le 4
    · rw [hl]; rfl
    · rw [hl]
      cases p <;> exact ⟨rfl, rfl⟩

end

end Sys2Proof.Machine
end

section
/-! PROOF. Received packets keep a state sound, and always find a place: a grant at the controller stands for a free
place of its pool (R167), so a packet charged to it is appended (R39), allocated (R61) or takes a slot (R140). -/

namespace Sys2Proof.Machine

/-- The outcome is a next state with the property. -/
def Leads (o : Host.Outcome State Fault Refusal) (P : State → Prop) : Prop := ∃ t, o = .next t ∧ P t

theorem leads_next {P : State → Prop} {t : State} (h : P t) : Leads (.next t) P := ⟨t, rfl, h⟩

/-! ## Grants and places (R163, R167) -/

theorem exists_notMem_of_length_lt {n : Nat} {l : List (Fin n)} (h : l.length < n) : ∃ i, i ∉ l := by
  by_contra! hall
  have hle := ((List.nodup_finRange n).subperm fun i _ => hall i).length_le
  rw [List.length_finRange] at hle
  exact absurd h (Nat.not_lt.mpr hle)

/-- The slots and the Link Port change, and the items stay where they are. -/
theorem State.Sound.of_items {s t : State} (h : s.Sound) (hf : t.pwq = s.pwq ∧ t.rt = s.rt ∧ t.lbe = s.lbe)
    (hslots : t.SlotsSound) (hlink : t.LinkSound) (hcredits : t.CreditsConserved) : t.Sound := by
  obtain ⟨hq, hr, hb⟩ := hf
  have hoccupancy : t.occupancy = s.occupancy := congrArg List.length hq
  have hentries (i : Fin 24) : t.rt.entries[i].Sound t.occupancy := by
    rw [hr, hoccupancy]
    exact h.tracker.entries i
  have hlists : t.rt.ListsAgree := hr ▸ h.tracker.lists
  exact ⟨h.queue.of_pwq hq, hlists.trackerSound hentries, h.engine.of_same hb hq hr, hslots, hlink, hcredits⟩

theorem State.consume_sameSession (p : Pool) (s : State) : s.link.SameSession (s.consume p).link := by
  simp [LinkPort.SameSession]

section
variable {s : State} {q : Pool}

/-- R167: a grant at the controller stands for a free place. -/
theorem State.Sound.room (h : s.Sound) (hup : s.link.state = .up) (hgrant : (s.link.pool q).outstanding ≠ 0) :
    s.held q < q.capacity := by
  have hpledged := h.credits.pledged_up h.tracker.lists h.slots hup q
  rw [State.pledged] at hpledged
  omega

/-- R163, R167: the grant that a packet has consumed becomes a resource in use. -/
theorem State.KeepsPledges.of_consume {t : State} (hup : s.link.state = .up)
    (hgrant : (s.link.pool q).outstanding ≠ 0) (hlink : t.link = (s.consume q).link)
    (hheld : ∀ p, t.held p = s.held p + if p = q then 1 else 0) : s.KeepsPledges t where
  up _ p := by
    rw [State.pledged, State.pledged, hheld, hlink, State.consume, LinkPort.pool_setPool]
    split
    next hpq => rw [hpq]; dsimp only; omega
    next => rfl
  down hdown := by rw [hup] at hdown; cases hdown

/-- R163, R169: the grant of a packet that is discarded is returned. -/
theorem State.Sound.consume_release (h : s.Sound) (hup : s.link.state = .up)
    (hgrant : (s.link.pool q).outstanding ≠ 0) : ((s.consume q).release q).Sound := by
  rw [State.consume_release_up q hup]
  have hsession : s.link.SameSession
      (s.link.setPool q ⟨(s.link.pool q).outstanding - 1, (s.link.pool q).awaiting + 1⟩) := by
    simp [LinkPort.SameSession]
  obtain ⟨hstate, _⟩ := id hsession
  refine h.of_items ⟨rfl, rfl, rfl⟩ (h.slots.of_same ⟨rfl, rfl, rfl⟩)
    (h.link.of_prefix hsession (.inr (List.prefix_refl _)) (List.prefix_refl _) fun hdown => ?_)
    (.of_pledged h.tracker.lists (h.slots.of_same ⟨rfl, rfl, rfl⟩) (fun _ p => ?_) fun hdown => ?_)
  · rw [hup] at hdown
    cases hdown
  · have hpledged := h.credits.pledged_up h.tracker.lists h.slots hup p
    rw [← hpledged, State.pledged, State.pledged, LinkPort.pool_setPool]
    split
    next hpq =>
      rw [hpq]
      dsimp only [State.held]
      omega
    next => rfl
  · rw [hstate, hup] at hdown
    cases hdown

end

/-! ## Posted writes (R38, R39) -/

section
variable {s : State}

theorem State.QueueSound.append {t : State} {r : WriteRecord} (h : s.QueueSound) (hroom : s.pwq.length < 32)
    (hrange : r.InRange) (hnew : r.Untouched) (ht : t.pwq = s.pwq ++ [r]) : t.QueueSound := by
  obtain ⟨_, hranges, huntouched⟩ := h
  rw [State.QueueSound, ht]
  refine ⟨by rw [List.length_append]; exact hroom, fun x hx => ?_, fun x hx => ?_⟩
  · rcases List.mem_append.mp hx with hx | hx
    · exact hranges x hx
    · rw [List.mem_singleton.mp hx]
      exact hrange
  · cases hq : s.pwq with
    | nil => rw [hq] at hx; cases hx
    | cons r' rest =>
      rw [hq] at hx huntouched
      rcases List.mem_append.mp hx with hx | hx
      · exact huntouched x hx
      · rw [List.mem_singleton.mp hx]
        exact hnew

/-- R37: a record that joins the tail is the head of a queue that was empty. -/
theorem State.headState_append {t : State} {r : WriteRecord} (ht : t.pwq = s.pwq ++ [r]) {st : RecordState}
    (hr : r.state ≠ st) : t.headState = some st ↔ s.headState = some st := by
  unfold State.headState
  rw [ht]
  cases s.pwq with
  | nil => simp [hr]
  | cons r' rest => exact Iff.rfl

/-- R39: a record takes the place that the controller's grant stood for. -/
theorem State.Sound.append (h : s.Sound) (hup : s.link.state = .up) (hgrant : (s.link.pool .posted).outstanding ≠ 0)
    {r : WriteRecord} (hrange : r.InRange) (hnew : r.Untouched) :
    State.Sound { s.consume .posted with pwq := s.pwq ++ [r] } := by
  have hqueued : r.state = .queued := hnew.1
  refine h.follows
    { queue := h.queue.append (h.room hup hgrant) hrange hnew rfl, lists := h.tracker.lists
      entries := fun i => (h.tracker.entries i).of_count ((h.tracker.entries i).countBound.trans ?_)
      engine := .of_fits h.engine.formed (h.engine.fitsHead.of_same ?_ ?_) h.engine.fitsEntry
      slots := .of_mu rfl, session := s.consume_sameSession .posted, completion := .inr (List.prefix_refl _)
      quiet := fun hdown => absurd (hup.symm.trans hdown) (by decide)
      pledges := .of_consume (q := .posted) hup hgrant rfl fun p => ?_ }
  · rw [State.occupancy, State.occupancy, List.length_append]
    exact Nat.le_add_right _ _
  · exact State.headState_append rfl (by rw [hqueued]; decide)
  · exact State.headState_append rfl (by rw [hqueued]; decide)
  · cases p with
    | posted => exact List.length_append
    | nonPosted => rfl
    | management => rfl

/-- Table 9-4: the data of a well-formed request. -/
structure DataRequest.WellFormed (q : DataRequest) : Prop where
  lengthRange : 1 ≤ q.length ∧ q.length ≤ 16
  readData : q.kind = .read → q.data = []
  writeData : q.kind ≠ .read → q.data.length = q.length

theorem Header.dataRequest_wellFormed {h : Header} {k : DataKind} {data : List Word}
    (hform : formWellFormed (.data k) h data = true) : (h.dataRequest k data).WellFormed := by
  cases k <;> simp only [formWellFormed, Bool.and_eq_true, decide_eq_true_eq, beq_iff_eq, List.isEmpty_iff] at hform <;>
    obtain ⟨⟨hlength, hdata⟩, _⟩ := hform
  case read => exact ⟨hlength, fun _ => hdata, fun hk => absurd rfl hk⟩
  all_goals exact ⟨hlength, nofun, fun _ => hdata⟩

/-- R38, Table 3-1: the record of a well-formed request. -/
theorem newRecord_inRange {q : DataRequest} (hq : q.WellFormed) (hkind : q.kind ≠ .read) (p : Placement)
    (g : BitVec 8) : (newRecord q p g).InRange ∧ (newRecord q p g).Untouched :=
  ⟨⟨hq.lengthRange.1, hq.lengthRange.2, hq.writeData hkind, hq.lengthRange.1, Nat.zero_le _⟩, rfl, rfl, rfl⟩

theorem State.Sound.reportRefusal (h : s.Sound) (posted : Bool) (q : DataRequest) (g : BitVec 8) (o : DecodeOutcome) :
    (s.reportRefusal posted q g o).Sound := by
  unfold State.reportRefusal
  split
  · exact h.report _
  · exact h

/-- R10, R19: the grant of a posted write that is discarded is returned. -/
theorem State.Sound.discardWrite (h : (s.release .posted).Sound) {o : DecodeOutcome} (ho : o.refusal.isSome = true)
    (q : DataRequest) : (s.discardWrite q o).Sound := by
  cases o with
  | accepted p o => cases ho
  | halted => exact h.of_mu (by simp [State.discardWrite])
  | _ =>
    simp only [State.discardWrite]
    exact h.reportRefusal _ _ _ _

theorem State.Sound.takePosted (h : s.Sound) (hup : s.link.state = .up)
    (hgrant : (s.link.pool .posted).outstanding ≠ 0) {q : DataRequest} (hq : q.WellFormed) (hkind : q.kind ≠ .read) :
    Leads ((s.consume .posted).takePosted q) State.Sound := by
  cases hd : decode (s.consume .posted).mu.port (s.consume .posted).wd.active q with
  | accepted p o =>
    obtain ⟨hrange, hnew⟩ := newRecord_inRange hq hkind p s.wd.generation
    exact ⟨_, State.takePosted_accepted hd (h.room hup hgrant), h.append hup hgrant hrange hnew⟩
  | _ => exact ⟨_, State.takePosted_refused hd rfl, State.Sound.discardWrite (h.consume_release hup hgrant) rfl q⟩

/-! ## READ and WRITE_CONFIRMED (R58 to R62) -/

theorem newEntry_requestSound {q : DataRequest} (hq : q.WellFormed) (g a : BitVec 8) :
    (newEntry q g a).RequestSound where
  lengthRange := hq.lengthRange
  progressBound := Nat.zero_le _
  readData hread := by
    cases hk : q.kind with
    | read => exact congrArg List.length (hq.readData hk)
    | _ => simp only [newEntry, hk] at hread; cases hread
  writeData hwrite := by
    cases hk : q.kind with
    | read => simp only [newEntry, hk] at hwrite; cases hwrite
    | _ => exact hq.writeData (by rw [hk]; decide)
  retryBound := Nat.zero_le _

/-- R61, R62: the entry of a request that has been allocated: it waits, or is COMPLETE at once. -/
structure TrackerEntry.Allocated (e : TrackerEntry) (occupancy : Nat) : Prop where
  sound : e.Sound occupancy
  inUse : e.inUse = true
  inactive : e.state ≠ .active
  noBackoff : e.state ≠ .backoff

theorem allocatedEntry_allocated {q : DataRequest} (hq : q.WellFormed) (o : DecodeOutcome) (g a : BitVec 8) (n : Nat) :
    (allocatedEntry q o g a n).Allocated n := by
  have hrequest := newEntry_requestSound hq g a
  cases hrefusal : o.refusal with
  | some st =>
    have hnotOk : st ≠ .ok := by
      rintro rfl
      cases o <;> cases hrefusal
    rw [allocatedEntry_refused hrefusal]
    exact ⟨TrackerEntry.completed_sound hrequest rfl (fun hok => absurd hok hnotOk) n, rfl, nofun, nofun⟩
  | none =>
    obtain ⟨p, w, rfl⟩ : ∃ p w, o = .accepted p w := by
      cases o with
      | accepted p w => exact ⟨p, w, rfl⟩
      | _ => cases hrefusal
    rw [allocatedEntry_accepted]
    by_cases hordered : w = .strict ∧ n ≠ 0
    · obtain ⟨hstrict, hn⟩ := id hordered
      rw [if_pos hordered, if_pos hstrict]
      exact ⟨TrackerEntry.sound_of_unfinished ⟨nofun, nofun⟩ { hrequest with } rfl hq.lengthRange.1 rfl
        (iff_of_true rfl hn) le_rfl nofun, rfl, nofun, nofun⟩
    · have hcount : (if w = .strict then n else 0) = 0 := by
        split
        next hstrict => exact of_not_not fun hn => hordered ⟨hstrict, hn⟩
        next => rfl
      rw [if_neg hordered, hcount]
      exact ⟨TrackerEntry.sound_of_unfinished ⟨nofun, nofun⟩ { hrequest with } rfl hq.lengthRange.1 rfl
        (iff_of_false nofun (not_not.mpr rfl)) (Nat.zero_le n) nofun, rfl, nofun, nofun⟩

theorem TrackerEntry.free_of_not_inUse {e : TrackerEntry} (h : e.inUse = false) : e.state = .free :=
  of_not_not fun hne => ne_true_of_eq_false h (e.inUse_iff.mpr hne)

/-- R58, R61: a FREE entry takes the place that the controller's grant stood for. -/
theorem State.Sound.allocate (h : s.Sound) (hup : s.link.state = .up)
    (hgrant : (s.link.pool .nonPosted).outstanding ≠ 0) {i : Fin 24} (hi : s.rt.entries[i].state = .free)
    {e : TrackerEntry} (he : e.Allocated s.occupancy) (counter : BitVec 8) :
    State.Sound { s.consume .nonPosted with rt :=
      { entries := s.rt.entries.set i e, counter := counter, order := s.rt.order ++ [i]
        completion := if e.state = .complete then s.rt.completion ++ [i] else s.rt.completion } } := by
  have hfrom : s.rt.entries[i].inUse = false := by rw [TrackerEntry.inUse, hi]; rfl
  have hfollows : s.lbe.FollowsEntry s.lbe i e.state :=
    h.engine.follows_marks (iff_of_false he.inactive (by rw [hi]; decide))
      (iff_of_false he.noBackoff (by rw [hi]; decide)) s.lbe.parityMarks
  refine h.follows
    { queue := h.queue, lists := h.tracker.lists.allocate hfrom he.inUse counter, entries := fun j => ?_
      engine := h.engine.followEntry (i := i) hfollows rfl rfl
      slots := .of_mu rfl, session := s.consume_sameSession .nonPosted, completion := .inr ?_
      quiet := fun hdown => absurd (hup.symm.trans hdown) (by decide)
      pledges := .of_consume (q := .nonPosted) hup hgrant rfl fun p => ?_ }
  · dsimp only
    rw [set_getElem]
    split
    · exact he.sound
    · exact h.tracker.entries j
  · dsimp only
    split
    · exact List.prefix_append _ _
    · exact List.prefix_refl _
  · cases p with
    | posted => rfl
    | nonPosted => exact List.length_append
    | management => rfl

/-- R61: while the controller holds a grant an entry is FREE. -/
theorem State.Sound.exists_free (h : s.Sound) (hup : s.link.state = .up)
    (hgrant : (s.link.pool .nonPosted).outstanding ≠ 0) : ∃ i : Fin 24, s.rt.entries[i].state = .free := by
  obtain ⟨i, hi⟩ := exists_notMem_of_length_lt (h.room hup hgrant)
  exact ⟨i, TrackerEntry.free_of_not_inUse (eq_false_of_ne_true fun hu => hi ((h.tracker.orderMem i).mpr hu))⟩

theorem State.Sound.takeNonPosted (h : s.Sound) (hup : s.link.state = .up)
    (hgrant : (s.link.pool .nonPosted).outstanding ≠ 0) {q : DataRequest} (hq : q.WellFormed) (p : Fin 24) :
    Leads ((s.consume .nonPosted).takeNonPosted q p) State.Sound := by
  cases ht : (s.consume .nonPosted).tagInUse q.tag with
  | true => exact ⟨_, State.takeNonPosted_tagInUse p ht, (h.consume_release hup hgrant).report _⟩
  | false =>
    obtain ⟨i, hfound, hfree, _⟩ := State.freeEntryFor_some (s := s.consume .nonPosted) p (h.exists_free hup hgrant)
    refine ⟨_, State.takeNonPosted_allocates ht hfound, State.Sound.reportRefusal ?_ _ _ _ _⟩
    exact h.allocate hup hgrant hfree (allocatedEntry_allocated hq _ _ _ _) _

/-! ## Management requests (R140) -/

/-- R140: the request enters a FREE slot, last in the arrival order. -/
theorem State.SlotsSound.fillSlot (h : s.SlotsSound) {k : Fin 2} (hk : s.mu.slots[k] = .free) (r : MgmtRequest) :
    (s.fillSlot k r).SlotsSound := by
  have hslot (j : Fin 2) : (s.fillSlot k r).mu.slots[j] = if j = k then .waiting r else s.mu.slots[j] :=
    set_getElem _ _ _ _
  refine ⟨nodup_append_new h.arrivalsNodup fun hmem => ?_, fun j => ?_, h.repliesNodup, fun j => ?_⟩
  · have hoccupied := (h.arrivalsMem k).mp hmem
    rw [hk] at hoccupied
    cases hoccupied
  · rw [hslot, State.fillSlot, List.mem_append, List.mem_singleton, h.arrivalsMem]
    split
    next hjk => exact iff_of_true (.inr hjk) rfl
    next hjk => exact or_iff_left hjk
  · rw [hslot]
    refine (h.repliesMem j).trans ?_
    split
    next hjk => rw [hjk, hk]; exact iff_of_false nofun nofun
    next => exact Iff.rfl

theorem State.Sound.fillSlot (h : s.Sound) (hup : s.link.state = .up)
    (hgrant : (s.link.pool .management).outstanding ≠ 0) {k : Fin 2} (hk : s.mu.slots[k] = .free) (r : MgmtRequest) :
    ((s.consume .management).fillSlot k r).Sound := by
  have hslots : ((s.consume .management).fillSlot k r).SlotsSound :=
    State.SlotsSound.fillSlot (s := s.consume .management) (h.slots.of_same ⟨rfl, rfl, rfl⟩) hk r
  have hpledges : s.KeepsPledges ((s.consume .management).fillSlot k r) :=
    .of_consume (q := .management) hup hgrant rfl fun p => by
      cases p with
      | posted => rfl
      | nonPosted => rfl
      | management => exact List.length_append
  refine h.of_items ⟨rfl, rfl, rfl⟩ hslots
    (h.link.of_prefix (s.consume_sameSession .management) (.inr (List.prefix_refl _)) (List.prefix_refl _)
      fun hdown => absurd (hup.symm.trans hdown) (by decide))
    (.of_pledged h.tracker.lists hslots (fun _ p => ?_) fun hdown => absurd (hup.symm.trans hdown) (by decide))
  rw [hpledges.up hup]
  exact h.credits.pledged_up h.tracker.lists h.slots hup p

theorem Slot.occupied_iff (q : Slot) : q.occupied = true ↔ q ≠ .free := by
  cases q <;> simp [occupied]

/-- R140: while the controller holds a grant a slot is FREE. -/
theorem State.Sound.takeManagement (h : s.Sound) (hup : s.link.state = .up)
    (hgrant : (s.link.pool .management).outstanding ≠ 0) (r : MgmtRequest) :
    Leads ((s.consume .management).takeManagement r) State.Sound := by
  have hfill {k : Fin 2} (hk : s.mu.slots[k] = .free)
      (horder : s.mu.slots[0] = .free ∧ k = 0 ∨ s.mu.slots[0] ≠ .free ∧ s.mu.slots[1] = .free ∧ k = 1) :
      Leads ((s.consume .management).takeManagement r) State.Sound :=
    ⟨_, State.takeManagement_fills (s := s.consume .management) horder r, h.fillSlot hup hgrant hk r⟩
  by_cases h0 : s.mu.slots[0] = .free
  · exact hfill (k := 0) h0 (.inl ⟨h0, rfl⟩)
  · obtain ⟨k, hk⟩ := exists_notMem_of_length_lt (h.room hup hgrant)
    have hfree : s.mu.slots[k] = .free :=
      of_not_not fun hne => hk ((h.slots.arrivalsMem k).mpr ((Slot.occupied_iff _).mpr hne))
    match k, hfree with
    | 0, hfree => exact absurd hfree h0
    | 1, hfree => exact hfill (k := 1) hfree (.inr ⟨h0, hfree, rfl⟩)

/-! ## DOWNSTREAM_PACKET (R161, R163) -/

theorem State.Sound.route (hs : s.Sound) (hup : s.link.state = .up) {k : DownstreamKind}
    (hgrant : (s.link.pool k.pool).outstanding ≠ 0) {h : Header} {data : List Word}
    (hform : formWellFormed k h data = true) (p : Fin 24) :
    Leads ((s.consume k.pool).route k h data p) State.Sound := by
  match k with
  | .data .writePosted => exact hs.takePosted hup hgrant (Header.dataRequest_wellFormed hform) nofun
  | .data .writeConfirmed => exact hs.takeNonPosted hup hgrant (Header.dataRequest_wellFormed hform) p
  | .data .read => exact hs.takeNonPosted hup hgrant (Header.dataRequest_wellFormed hform) p
  | .mgmt m => exact hs.takeManagement hup hgrant _

theorem State.Sound.chargePacket (hs : s.Sound) (hup : s.link.state = .up) (k : DownstreamKind) (h : Header)
    (data : List Word) (p : Fin 24) : Leads (s.chargePacket k h data p) State.Sound := by
  by_cases hgrant : (s.link.pool k.pool).outstanding = 0
  · rw [State.chargePacket, if_pos hgrant]
    exact leads_next (hs.report _)
  · by_cases hform : formWellFormed k h data = true
    · rw [State.chargePacket_routed p hgrant hform]
      exact hs.route hup hgrant hform p
    · rw [State.chargePacket, if_neg hgrant, if_neg hform]
      exact leads_next ((hs.consume_release hup hgrant).report _)

theorem State.Sound.execDownstreamPacket (h : s.Sound) (words : List Word) (p : Fin 24) :
    Leads (execDownstreamPacket words p s) State.Sound := by
  unfold Machine.execDownstreamPacket State.takePacket
  split
  · exact leads_next h
  next hup =>
    split
    · exact leads_next (h.report _).endSession
    · split
      · exact leads_next (h.report _)
      · exact h.chargePacket hup _ _ _ _

end

end Sys2Proof.Machine
end

section
/-! PROOF. The commands of the local bus keep a state sound: the decision and the grant (R84 to R88), the three answers
(R93 to R97), the local access timer (R98) and the backoff timers (R96). -/

namespace Sys2Proof.Machine

section
variable {s : State} {i : Fin 24} {r : WriteRecord} {rest : List WriteRecord}

/-! ## The decision and the grant (R84 to R89) -/

/-- R86: the head is granted beside a READY entry only while the streak is below the fairness limit. -/
theorem State.decision_head (h : s.decision = some .head) :
    s.HeadOffered ∧ (s.readyOffered.isSome = true → s.lbe.streak < s.mu.fairness.toNat) := by
  rw [← s.headOffered_iff]
  unfold State.decision at h
  split at h
  next hhead hnone => exact ⟨hhead, fun hsome => by rw [hnone] at hsome; cases hsome⟩
  next => cases h
  next hhead _ =>
    split at h
    next hbelow => exact ⟨hhead, fun _ => hbelow⟩
    next => cases h
  next => cases h

theorem State.Sound.head_inRange (h : s.Sound) (hq : s.pwq = r :: rest) : r.InRange := by
  obtain ⟨_, hrange, _⟩ := h.queue
  exact hrange r (hq ▸ List.mem_cons_self)

/-- R87: the streak does not pass 15. -/
theorem State.Sound.streak_bound (h : s.Sound) (hdecision : s.decision = some .head) :
    (if s.readyOffered.isSome = true then s.lbe.streak + 1 else s.lbe.streak) ≤ 15 := by
  obtain ⟨_, hbelow⟩ := State.decision_head hdecision
  have hfairness := s.mu.fairness.isLt
  split
  next hready => have := hbelow hready; omega
  next => exact h.engine.streakBound

theorem State.Sound.grantHead (h : s.Sound) (hidle : s.lbe.engine = .idle) (hdecision : s.decision = some .head) :
    s.grantHead.Sound := by
  obtain ⟨⟨_, r, rest, hq, hqueued⟩, _⟩ := State.decision_head hdecision
  have hrange : r.InRange := h.head_inRange hq
  rw [State.grantHead_eq hq]
  refine h.replaceHead hq hrange (h.engine.followsHead_grant hidle ?_ (h.streak_bound hdecision))
  rw [State.headState_cons hq, hqueued]

theorem State.Sound.grantEntry (h : s.Sound) (hidle : s.lbe.engine = .idle) (hdecision : s.decision = some (.entry i)) :
    (s.grantEntry i).Sound := by
  obtain ⟨_, hready, _⟩ := State.readyOffered_of_decision hdecision
  have hopen : s.rt.entries[i].Unfinished := TrackerEntry.unfinished_of_state hready (by decide)
  have hbound := ((h.tracker.entries i).request hopen.inUse).retryBound
  rw [State.grantEntry_eq]
  refine h.replaceEntry hopen ⟨nofun, nofun⟩ ?_ (h.engine.follows_grant hidle hready _ _)
    (.inl (h.up_of_entry hopen.inUse (.inl (by rw [hready]; decide))))
  exact (h.tracker.entries i).moved hopen (by rw [hready]; decide) (by decide) (by decide) hbound fun _ => rfl

theorem State.Sound.execArbitrationDecision (h : s.Sound) : Leads (execArbitrationDecision s) State.Sound := by
  unfold Machine.execArbitrationDecision
  split
  next hidle hdecision => exact leads_next (h.grantHead hidle hdecision)
  next hidle hdecision => exact leads_next (h.grantEntry hidle hdecision)
  all_goals exact leads_next h

/-- The engine goes on with the transaction of its item. -/
theorem State.Sound.of_engine (h : s.Sound) {b : LocalBusEngine} (hformed : b.Formed)
    (hitems : b.current = s.lbe.current ∧ b.headTimer = s.lbe.headTimer ∧ b.entryTimers = s.lbe.entryTimers) :
    State.Sound { s with lbe := b } := by
  obtain ⟨hcurrent, hhead, htimers⟩ := hitems
  refine h.follows
    { queue := h.queue, lists := h.tracker.lists, entries := h.tracker.entries
      engine := .of_fits hformed ⟨?_, ?_⟩ fun i => ⟨?_, ?_⟩
      slots := .of_mu rfl, session := .refl _, completion := .inr (List.prefix_refl _)
      quiet := fun _ hs => hs.of_entries (.of_mu rfl) hs.noCompletion rfl rfl fun i hi => ⟨hi, rfl, rfl⟩
      pledges := .of_frame rfl fun p => by cases p <;> rfl }
  · dsimp only
    rw [hcurrent]
    exact h.engine.fitsHead.active
  · dsimp only
    rw [hhead]
    exact h.engine.fitsHead.backoff
  · dsimp only
    rw [hcurrent]
    exact h.engine.entryActive i
  · dsimp only
    rw [htimers]
    exact h.engine.entryTimer i

/-- R83: an engine that is not IDLE runs an item, and its timer runs. -/
theorem LocalBusEngine.Formed.busy {b : LocalBusEngine} (h : b.Formed) (hbusy : b.engine ≠ .idle) :
    b.current.isSome = true ∧ b.accessTimer.isSome = true :=
  ⟨Option.isSome_iff_ne_none.mpr fun hnone => hbusy (h.idleCurrent.mpr hnone),
    Option.isSome_iff_ne_none.mpr fun hnone => hbusy (h.idleTimer.mpr hnone)⟩

theorem State.Sound.execBusGrant (h : s.Sound) : Leads (execBusGrant s) State.Sound := by
  unfold Machine.execBusGrant
  split
  next hrequesting _ =>
    obtain ⟨hcurrent, htimer⟩ := h.engine.formed.busy (by rw [hrequesting]; decide)
    exact leads_next (h.of_engine (.of_owning rfl hcurrent htimer rfl rfl h.engine.streakBound) ⟨rfl, rfl, rfl⟩)
  all_goals exact leads_next h

/-! ## The ends of a transaction (R100, R101) -/

/-- R101: a failure is reported after the item is handed back. -/
theorem State.Sound.endFailed (h : s.Sound) {c : CurrentItem} (hc : s.lbe.current = some c) (f : Failure) :
    (s.endFailed f).Sound :=
  (h.handedBack_failed hc (by cases f <;> decide)).reportOption _

/-- R94: a beat in progress belongs to the current item. -/
theorem State.beatOf_of_beatItem {it : Item} (h : s.beatItem = some it) :
    ∃ c, s.BeatOf c ∧ s.currentItem = some it := by
  unfold State.beatItem at h
  split at h
  next howning hbeat =>
    cases hc : s.lbe.current with
    | none => simp only [State.currentItem, hc] at h; cases h
    | some c => exact ⟨c, ⟨howning, by rw [hbeat]; rfl, hc⟩, h⟩
  all_goals cases h

/-! ## ACK (R93, R99) -/

/-- R93, R98: the next beat of the transaction. -/
theorem State.Sound.nextBeat (h : s.Sound) (howning : s.lbe.engine = .owning) (it : Item) : (s.nextBeat it).Sound := by
  obtain ⟨c, hcycle⟩ := Option.isSome_iff_exists.mp (h.engine.owningCycle.mp howning)
  obtain ⟨hcurrent, _⟩ := h.engine.formed.busy (by rw [howning]; decide)
  rw [State.nextBeat_eq it hcycle]
  exact h.of_engine (.of_owning howning hcurrent rfl rfl rfl h.engine.streakBound) ⟨rfl, rfl, rfl⟩

/-- R43, R93: a word of the head that is not its last is acknowledged. -/
theorem State.Sound.acknowledgeHead (h : s.Sound) (hq : s.pwq = r :: rest) (hmore : r.progress + 1 < r.length) :
    State.Sound { s with pwq := { r with progress := r.progress + 1 } :: rest } := by
  obtain ⟨hmin, hmax, hdata, _, hretry⟩ := h.head_inRange hq
  have hsame := h.engine.followsHead_same
  rw [State.headState_cons hq] at hsame
  exact h.replaceHead (r' := { r with progress := r.progress + 1 }) hq ⟨hmin, hmax, hdata, hmore, hretry⟩ hsame

/-- R93: the head's word is acknowledged. -/
theorem State.Sound.takeAck_head (h : s.Sound) (hbeat : s.BeatOf .head) (hq : s.pwq = r :: rest) (lanes : Word)
    (parity : Nibble) : (s.takeAck r.item lanes parity).Sound := by
  obtain ⟨howning, _, hc⟩ := hbeat
  unfold State.takeAck
  rw [State.acknowledge_head r.item lanes parity hc hq]
  split
  next hmore => exact (h.acknowledgeHead hq hmore).nextBeat howning r.item
  next =>
    rw [State.endLastWord_head (s := { s with pwq := { r with progress := r.progress + 1 } :: rest }) hc rfl]
    exact h.retireHead hq _ (h.engine.followsHead_released hc (h.queue.rest_queued hq (by decide))
      (h.queue.rest_queued hq (by decide)))

/-- R99: the check of the lanes' parity changes the parity marks alone. -/
theorem State.checkParity_marks (i : Fin 24) (it : Item) (lanes : Word) (parity : Nibble) (s : State) :
    ∃ m, s.checkParity i it lanes parity = { s with lbe := { s.lbe with parityMarks := m } } := by
  unfold State.checkParity
  split
  · exact ⟨s.lbe.parityMarks, rfl⟩
  · split
    · exact ⟨_, rfl⟩
    · exact ⟨s.lbe.parityMarks, rfl⟩

/-- R66, R93, R99: the word is handed to the entry, and the parity marks may change. -/
theorem State.acknowledge_marks (hc : s.lbe.current = some (.entry i)) (it : Item) (lanes : Word) (parity : Nibble) :
    ∃ m, s.acknowledge it lanes parity = { s with
      rt := { s.rt with entries := s.rt.entries.set i (s.rt.entries[i].acknowledged (it.readWord lanes)) }
      lbe := { s.lbe with parityMarks := m } } := by
  obtain ⟨m, hm⟩ := s.checkParity_marks i it lanes parity
  refine ⟨m, ?_⟩
  rw [State.acknowledge_entry it lanes parity hc, hm]
  rfl

/-- R66, R93: the entry's word is acknowledged. -/
theorem State.Sound.takeAck_entry (h : s.Sound) (hbeat : s.BeatOf (.entry i)) (p : Placement) (lanes : Word)
    (parity : Nibble) : (s.takeAck (s.rt.entries[i].itemAt p) lanes parity).Sound := by
  obtain ⟨howning, _, hc⟩ := hbeat
  have hopen := h.activeUnfinished hc
  have hmore := (h.tracker.entries i).unfinished hopen.inUse hopen.2
  obtain ⟨m, hm⟩ := State.acknowledge_marks hc (s.rt.entries[i].itemAt p) lanes parity
  obtain ⟨hst, ho, _, hl, _, _, hpr⟩ :=
    s.rt.entries[i].acknowledged_frame ((s.rt.entries[i].itemAt p).readWord lanes)
  unfold State.takeAck
  rw [hm]
  split
  next hnext =>
    have hacknowledged := h.replaceEntry hopen (TrackerEntry.unfinished_of_state hst hopen)
      ((h.tracker.entries i).acknowledged hopen hnext _) (h.engine.follows_marks (by rw [hst]) (by rw [hst]) m)
      (.inr ⟨hst, ho⟩)
    exact hacknowledged.nextBeat howning _
  next hlast =>
    have hrequest := ((h.tracker.entries i).request hopen.inUse).acknowledged hmore
      ((s.rt.entries[i].itemAt p).readWord lanes)
    unfold State.endLastWord State.endFailed
    split
    · exact (h.handedBack_changed hc m (st := .dataParity) hrequest ho nofun).reportOption _
    · refine h.handedBack_changed hc m hrequest ho fun _ => ?_
      rw [hpr, hl]
      exact Nat.le_antisymm hmore (Nat.not_lt.mp hlast)

theorem State.Sound.execAckAnswer (h : s.Sound) (lanes : Word) (parity : Nibble) :
    Leads (execAckAnswer lanes parity s) State.Sound := by
  unfold Machine.execAckAnswer
  split
  next it hit =>
    obtain ⟨c, hbeat, hitem⟩ := State.beatOf_of_beatItem hit
    obtain ⟨_, _, hc⟩ := id hbeat
    cases c with
    | head =>
      obtain ⟨r, rest, hq, _⟩ := h.activeHead hc
      obtain rfl : r.item = it := Option.some.inj ((State.currentItem_head hc hq).symm.trans hitem)
      exact leads_next (h.takeAck_head hbeat hq lanes parity)
    | entry i =>
      obtain ⟨p, _, rfl⟩ := TrackerEntry.placed_of_item ((State.currentItem_entry hc).symm.trans hitem)
      exact leads_next (h.takeAck_entry hbeat p lanes parity)
  next => exact leads_next h

/-! ## RETRY (R44, R53, R68, R77, R79, R95) -/

/-- R44, R53: the head enters BACKOFF, or is discarded while the port is HALTED. -/
theorem State.Sound.retryWithin_head (h : s.Sound) (hc : s.lbe.current = some .head) (hq : s.pwq = r :: rest)
    (hretry : r.retryCount + 1 ≤ 15) : s.releaseBus.retryWithin.clearCurrent.Sound := by
  have hwithin : s.releaseBus.retryWithin = s.releaseBus.retryHead := by
    have hc' : s.releaseBus.lbe.current = some .head := hc
    simp only [State.retryWithin, hc']
  rw [hwithin]
  by_cases hport : s.mu.port = .halted
  · rw [State.retryHead_halted (s := s.releaseBus) hq hport, State.clearCurrent_retirement]
    have hcounted : State.Sound { s with ecu := { s.ecu with discarded := satIncr s.ecu.discarded } } :=
      h.of_mu ⟨rfl, rfl, rfl, rfl, rfl, rfl⟩
    exact hcounted.retireHead hq _ (h.engine.followsHead_released hc (h.queue.rest_queued hq (by decide))
      (h.queue.rest_queued hq (by decide)))
  · rw [State.retryHead_backoff (s := s.releaseBus) hq hport]
    obtain ⟨hmin, hmax, hdata, hprogress, _⟩ := h.head_inRange hq
    exact h.replaceHead (r' := { r with retryCount := r.retryCount + 1, state := .backoff }) hq
      ⟨hmin, hmax, hdata, hprogress, hretry⟩ (h.engine.followsHead_backoff hc s.backoffInterval)

/-- R68, R77, R79: the entry enters BACKOFF; while the port is HALTED it completes, and an orphan becomes FREE. -/
theorem State.Sound.retryWithin_entry (h : s.Sound) (hc : s.lbe.current = some (.entry i))
    (hretry : s.rt.entries[i].retryCount + 1 ≤ 15) : s.releaseBus.retryWithin.clearCurrent.Sound := by
  cases ho : s.rt.entries[i].orphan with
  | true =>
    rw [State.retryWithin_orphan hc ho, ← State.handedBack_orphan .retryLimit hc ho]
    exact h.handedBack_failed hc (by decide)
  | false =>
    have hwithin : s.releaseBus.retryWithin = s.releaseBus.retryEntry i := by
      have hc' : s.releaseBus.lbe.current = some (.entry i) := hc
      simp only [State.retryWithin, hc']
    rw [hwithin]
    by_cases hport : s.mu.port = .halted
    · have hback := h.handedBack_failed hc (st := .refusedHalted) (by decide)
      rw [State.handedBack_entry .refusedHalted hc ho] at hback
      rw [State.retryEntry_halted (s := s.releaseBus) ho hport]
      exact hback
    · have hopen := h.activeUnfinished hc
      rw [State.retryEntry_backoff (s := s.releaseBus) ho hport]
      refine h.replaceEntry hopen ⟨nofun, nofun⟩ ?_ (h.engine.follows_backoff hc s.backoffInterval)
        (.inl (h.up_of_entry hopen.inUse (.inr ho)))
      exact (h.tracker.entries i).moved hopen (by rw [h.activeEntry hc]; decide) (by decide) (by decide) hretry
        fun horphan => absurd horphan (ne_true_of_eq_false ho)

theorem State.Sound.execRetryAnswer (h : s.Sound) : Leads (execRetryAnswer s) State.Sound := by
  unfold Machine.execRetryAnswer
  split
  next it hit =>
    refine leads_next ?_
    obtain ⟨c, ⟨_, _, hc⟩, hitem⟩ := State.beatOf_of_beatItem hit
    unfold State.takeRetry
    split
    next => exact h.endFailed hc _
    next hwithin =>
      have hlimit : it.retryCount + 1 ≤ 15 := (Nat.not_lt.mp hwithin).trans (Nat.le_of_lt_succ s.mu.retryLimit.isLt)
      cases c with
      | head =>
        obtain ⟨r, rest, hq, _⟩ := h.activeHead hc
        obtain rfl : r.item = it := Option.some.inj ((State.currentItem_head hc hq).symm.trans hitem)
        exact h.retryWithin_head hc hq hlimit
      | entry i =>
        obtain ⟨p, _, rfl⟩ := TrackerEntry.placed_of_item ((State.currentItem_entry hc).symm.trans hitem)
        exact h.retryWithin_entry hc hlimit
  next => exact leads_next h

/-! ## ERROR and the timers (R96 to R98) -/

theorem State.Sound.execErrorAnswer (h : s.Sound) : Leads (execErrorAnswer s) State.Sound := by
  unfold Machine.execErrorAnswer
  split
  next it hit =>
    obtain ⟨c, ⟨_, _, hc⟩, _⟩ := State.beatOf_of_beatItem hit
    exact leads_next (h.endFailed hc _)
  next => exact leads_next h

theorem State.Sound.execLocalAccessTimerExpiry (h : s.Sound) : Leads (execLocalAccessTimerExpiry s) State.Sound := by
  unfold Machine.execLocalAccessTimerExpiry
  split
  next hruns =>
    have hbusy : s.lbe.engine ≠ .idle := fun hidle => by
      rw [h.engine.idleTimer.mp hidle] at hruns
      cases hruns
    obtain ⟨hcurrent, _⟩ := h.engine.formed.busy hbusy
    obtain ⟨c, hc⟩ := Option.isSome_iff_exists.mp hcurrent
    exact leads_next (h.endFailed hc _)
  next => exact leads_next h

/-- R45: the head is offered again. -/
theorem State.Sound.headExpires (h : s.Sound) (hruns : s.lbe.headTimer.isSome = true) : s.headExpires.Sound := by
  obtain ⟨r, rest, hq, hbackoff⟩ := h.engine.headTimer.mp hruns
  have hrange : r.InRange := h.head_inRange hq
  rw [State.headExpires_backoff hq hbackoff]
  refine h.replaceHead hq hrange (h.engine.followsHead_expiry ?_)
  rw [State.headState_cons hq, hbackoff]

/-- R69: the entry is offered again. -/
theorem State.Sound.entryExpires (h : s.Sound) (hruns : s.lbe.entryTimers[i].isSome = true) :
    (s.entryExpires i).Sound := by
  have hbackoff := (h.engine.entryTimer i).mp hruns
  have hopen : s.rt.entries[i].Unfinished := TrackerEntry.unfinished_of_state hbackoff (by decide)
  have hup := h.up_of_entry hopen.inUse (.inl (by rw [hbackoff]; decide))
  have horphan : ¬s.rt.entries[i].orphan = true := fun ho =>
    absurd (hbackoff.symm.trans ((h.tracker.entries i).orphanActive ho)) (by decide)
  rw [State.entryExpires_backoff hbackoff]
  refine h.replaceEntry hopen ⟨nofun, nofun⟩ ?_ (h.engine.follows_expiry hbackoff) (.inl hup)
  exact (h.tracker.entries i).moved hopen (by rw [hbackoff]; decide) (by decide) (by decide)
    ((h.tracker.entries i).request hopen.inUse).retryBound fun ho => absurd ho horphan

theorem State.Sound.execBackoffIntervalExpiry (h : s.Sound) (item : BackoffItem) :
    Leads (execBackoffIntervalExpiry item s) State.Sound := by
  cases item with
  | head =>
    simp only [Machine.execBackoffIntervalExpiry]
    split
    next hruns => exact leads_next (h.headExpires (by rw [hruns]; rfl))
    next => exact leads_next h
  | entry i =>
    simp only [Machine.execBackoffIntervalExpiry]
    split
    next hruns => exact leads_next (h.entryExpires (by rw [hruns]; rfl))
    next => exact leads_next h

end

end Sys2Proof.Machine
end

section
/-! PROOF. The upstream link (R166, R170 to R172), the local notice port (R132 to R134) and the management requests
(R141) keep a state sound. -/

namespace Sys2Proof.Machine

section
variable {s : State} {i : Fin 24} {k : Fin 2}

/-! ## The transmit arbiter (R166, R170 to R172) -/

/-- R166, R170, R172: while the link is UP the Link Port and the Notice Queue change, and every pool keeps its sum. -/
theorem State.Sound.of_link (h : s.Sound) (hup : s.link.state = .up) {l : LinkPort} (nq : List Notice)
    (hstate : l.state = .up) (htx : State.TxSound { s with link := l, nq := nq }) (hskip : l.skip ≤ 4)
    (hmark : l.sessionStart = false) (hpools : ∀ p, (l.pool p).outstanding + (l.pool p).awaiting =
      (s.link.pool p).outstanding + (s.link.pool p).awaiting) :
    State.Sound { s with link := l, nq := nq } := by
  have hslots : State.SlotsSound { s with link := l, nq := nq } := h.slots.of_same ⟨rfl, rfl, rfl⟩
  refine h.of_items ⟨rfl, rfl, rfl⟩ hslots
    ⟨fun hdown => absurd (hstate.symm.trans hdown) (by decide), htx, hskip, hmark⟩
    (.of_pledged h.tracker.lists hslots (fun _ p => ?_) fun hdown => absurd (hstate.symm.trans hdown) (by decide))
  have hpledged := h.credits.pledged_up h.tracker.lists h.slots hup p
  have hsum := hpools p
  rw [State.pledged] at hpledged ⊢
  have hheld : State.held { s with link := l, nq := nq } p = s.held p := by cases p <;> rfl
  rw [hheld]
  dsimp only
  omega

/-- R172: the skip count does not pass 4. -/
theorem State.Sound.skipRaised (h : s.Sound) (hup : s.link.state = .up) : s.skipRaised.Sound := by
  unfold State.skipRaised
  split
  · exact h
  · refine h.of_link hup s.nq hup h.link.tx ?_ h.link.markClear fun p => by cases p <;> rfl
    have hbound := h.link.skipBound
    have hlimit : Config.skipLimit = 4 := rfl
    dsimp only
    split <;> omega

theorem State.skipRaised_link (s : State) : s.skipRaised.link.state = s.link.state := by
  unfold State.skipRaised
  split <;> rfl

/-- R170: a CREDIT turns the returns awaiting into grants. -/
theorem State.Sound.beginCredit (h : s.Sound) (hup : s.link.state = .up) : s.beginCredit.Sound :=
  h.of_link hup s.nq hup trivial h.link.skipBound rfl fun p => by cases p <;> rfl

/-- R142, R166: the reply that begins is the first in the order of readiness. -/
theorem State.Sound.beginReply (h : s.Sound) (hup : s.link.state = .up) (hk : s.mu.replies.head? = some k) :
    (s.beginReply k).Sound := by
  unfold State.beginReply
  split
  · exact h.of_link hup s.nq hup hk h.link.skipBound h.link.markClear fun p => by cases p <;> rfl
  all_goals exact h

/-- R70, R166: the response that begins is the first on the completion list. -/
theorem State.Sound.beginResponse (h : s.Sound) (hup : s.link.state = .up) (hi : s.rt.completion.head? = some i) :
    (s.beginResponse i).Sound :=
  h.of_link hup s.nq hup hi h.link.skipBound h.link.markClear fun p => by cases p <;> rfl

theorem State.Sound.beginNotice (h : s.Sound) (hup : s.link.state = .up) (n : Notice) (rest : List Notice) :
    (s.beginNotice n rest).Sound :=
  h.of_link hup rest hup trivial (Nat.zero_le 4) h.link.markClear fun p => by cases p <;> rfl

theorem State.Sound.chooseData (h : s.Sound) (hup : s.link.state = .up) : s.chooseData.Sound := by
  unfold State.chooseData
  split
  next => exact h
  next => exact h.beginNotice hup _ _
  next hc => exact h.beginResponse hup (by rw [hc]; rfl)
  next hc =>
    split
    next => exact h.beginNotice hup _ _
    next =>
      refine (h.skipRaised hup).beginResponse (s.skipRaised_link.trans hup) ?_
      simp only [State.skipRaised_frame, hc, List.head?_cons]

theorem State.Sound.chooseUpstream (h : s.Sound) (hup : s.link.state = .up) : s.chooseUpstream.Sound := by
  unfold State.chooseUpstream
  split
  · exact (h.skipRaised hup).beginCredit (s.skipRaised_link.trans hup)
  · split
    next hr =>
      refine (h.skipRaised hup).beginReply (s.skipRaised_link.trans hup) ?_
      simp only [State.skipRaised_frame, hr, List.head?_cons]
    next => exact h.chooseData hup

theorem State.Sound.execTransmitChoice (h : s.Sound) : Leads (execTransmitChoice s) State.Sound := by
  unfold Machine.execTransmitChoice
  split
  next hup _ => exact leads_next (h.chooseUpstream hup)
  all_goals exact leads_next h

/-! ## The ends of transmissions (R71, R142, R166) -/

/-- R160: while the link is DOWN no packet is in transmission. -/
theorem State.Sound.up_of_source (h : s.Sound) {source : TxSource} (hs : s.link.txSource = some source) :
    s.link.state = .up := by
  cases hstate : s.link.state with
  | up => rfl
  | down =>
    rw [LinkPort.txSource_of_none (h.link.downQuiet hstate).noTx] at hs
    cases hs

theorem State.Sound.clearTx (h : s.Sound) (hup : s.link.state = .up) : s.clearTx.Sound :=
  h.of_link hup s.nq hup trivial h.link.skipBound h.link.markClear fun p => by cases p <;> rfl

theorem State.Sound.execUpstreamTransmissionEnds (h : s.Sound) :
    Leads (execUpstreamTransmissionEnds s) State.Sound := by
  unfold Machine.execUpstreamTransmissionEnds
  split
  next hs => exact leads_next (h.clearTx (h.up_of_source hs))
  next hs => exact leads_next (h.clearTx (h.up_of_source hs))
  all_goals exact leads_next h

/-- R166: the response in transmission is the first on the completion list. -/
theorem State.Sound.response_head (h : s.Sound) (hs : s.link.txSource = some (.response i)) :
    s.rt.completion.head? = some i := by
  have htx := h.link.tx
  rw [State.TxSound, hs] at htx
  exact htx

theorem State.Sound.reply_head (h : s.Sound) (hs : s.link.txSource = some (.reply k)) :
    s.mu.replies.head? = some k := by
  have htx := h.link.tx
  rw [State.TxSound, hs] at htx
  exact htx

/-- R71: the entry of the response sent becomes FREE. -/
theorem State.Sound.responseSent (h : s.Sound) (hs : s.link.txSource = some (.response i)) :
    (s.clearTx.freeEntry i).Sound := by
  have hcomplete : s.rt.entries[i].state = .complete :=
    (h.tracker.completionMem i).mp (List.mem_of_mem_head? (h.response_head hs))
  have hfollows := h.engine.follows_marks (st := .free) (iff_of_false nofun (by rw [hcomplete]; decide))
    (iff_of_false nofun (by rw [hcomplete]; decide)) s.lbe.parityMarks
  have hfreed := (h.clearTx (h.up_of_source hs)).freeEntry s.rt.entries[i]
    (TrackerEntry.inUse_of_state hcomplete (by decide)) (.inl rfl) hfollows
  have hsame : s.rt.entries.set i s.rt.entries[i] = s.rt.entries := Vector.set_getElem_self i.isLt
  have hrt : s.clearTx.rt = s.rt := rfl
  rw [hrt, hsame] at hfreed
  exact hfreed

theorem State.Sound.execResponseSent (h : s.Sound) : Leads (execResponseSent s) State.Sound := by
  unfold Machine.execResponseSent
  split
  next hs => exact leads_next (h.responseSent hs)
  all_goals exact leads_next h

/-- R142: a slot becomes FREE and leaves both orders. -/
theorem State.SlotsSound.freeSlot (h : s.SlotsSound) (k : Fin 2) : (s.freeSlot k).SlotsSound := by
  have hslot (j : Fin 2) : (s.freeSlot k).mu.slots[j] = if j = k then .free else s.mu.slots[j] := set_getElem _ _ _ _
  refine ⟨h.arrivalsNodup.filter _, fun j => ?_, h.repliesNodup.filter _, fun j => ?_⟩
  · rw [hslot, State.freeSlot, List.mem_filter, bne_iff_ne, h.arrivalsMem]
    split
    next hjk => exact iff_of_false (fun hj => hj.2 hjk) nofun
    next hjk => exact and_iff_left hjk
  · rw [hslot, State.freeSlot, List.mem_filter, bne_iff_ne, h.repliesMem]
    split
    next hjk => exact iff_of_false (fun hj => hj.2 hjk) nofun
    next hjk => exact and_iff_left hjk

theorem Slot.occupied_of_isReply {q : Slot} (h : q.isReply = true) : q.occupied = true := by
  cases q with
  | reply r m => rfl
  | _ => cases h

/-- R142, R169: the slot of the reply sent becomes FREE, and its grant is returned. -/
theorem State.Sound.mgmtReplySent (h : s.Sound) (hs : s.link.txSource = some (.reply k)) :
    ((s.clearTx.freeSlot k).release .management).Sound := by
  have hup := h.up_of_source hs
  have hcleared := h.clearTx hup
  have hmem : k ∈ s.mu.arrivals := (h.slots.arrivalsMem k).mpr
    (Slot.occupied_of_isReply ((h.slots.repliesMem k).mp (List.mem_of_mem_head? (h.reply_head hs))))
  have hslots : ((s.clearTx.freeSlot k).release .management).SlotsSound :=
    (hcleared.slots.freeSlot k).of_same (by simp)
  have hpledges : s.clearTx.KeepsPledges ((s.clearTx.freeSlot k).release .management) :=
    .of_release (q := .management) (State.release_link_congr .management rfl) fun p => by
      simp only [State.held, State.release_frame, State.freeSlot_frame]
      cases p with
      | management => exact length_filter_ne h.slots.arrivalsNodup hmem
      | _ => rfl
  have hstate : ((s.clearTx.freeSlot k).release .management).link.state = .up := by
    simp only [State.release_frame]
    exact hup
  refine hcleared.of_items (by simp) hslots ⟨fun hdown => absurd (hstate.symm.trans hdown) (by decide), ?_, ?_, ?_⟩
    (.of_pledged ?_ hslots (fun _ p => ?_) fun hdown => absurd (hstate.symm.trans hdown) (by decide))
  · have hnone : ((s.clearTx.freeSlot k).release .management).link.tx = none := by
      simp only [State.release_frame]
      rfl
    rw [State.TxSound, LinkPort.txSource_of_none hnone]
    trivial
  · simp only [State.release_frame]
    exact h.link.skipBound
  · simp only [State.release_frame]
    exact h.link.markClear
  · simp only [State.release_frame]
    exact h.tracker.lists
  · rw [hpledges.up hup]
    exact hcleared.credits.pledged_up hcleared.tracker.lists hcleared.slots hup p

theorem State.Sound.execMgmtReplySent (h : s.Sound) : Leads (execMgmtReplySent s) State.Sound := by
  unfold Machine.execMgmtReplySent
  split
  next hs => exact leads_next (h.mgmtReplySent hs)
  all_goals exact leads_next h

/-! ## LINK_UP (R160) -/

/-- Table 9-6: no pool has more resources in use than it holds. -/
theorem State.Sound.held_le_capacity (h : s.Sound) (p : Pool) : s.held p ≤ p.capacity := by
  cases p with
  | posted => exact h.queue.1
  | nonPosted => exact h.tracker.orderNodup.length_le_card.trans_eq (Fintype.card_fin 24)
  | management => exact h.slots.arrivalsNodup.length_le_card.trans_eq (Fintype.card_fin 2)

/-- R160, R170: a session begins with a grant for each free place. -/
theorem State.Sound.sessionBegins (h : s.Sound) (hdown : s.link.state = .down) : s.sessionLoaded.beginCredit.Sound := by
  have hslots : s.sessionLoaded.beginCredit.SlotsSound := h.slots.of_same (by simp)
  refine h.of_items (by simp) hslots ⟨nofun, trivial, Nat.zero_le 4, rfl⟩
    (.of_pledged (by simpa only [State.beginCredit_frame, State.sessionLoaded_frame] using h.tracker.lists) hslots
      (fun _ p => ?_) nofun)
  have hgrants : (s.sessionLoaded.beginCredit.link.pool p) = ⟨(s.link.pool p).outstanding + s.freeCount p, 0⟩ := by
    cases p <;> rfl
  have hheld : s.sessionLoaded.beginCredit.held p = s.held p := by cases p <;> rfl
  have hroom := h.held_le_capacity p
  rw [State.pledged, hheld, hgrants, h.credits.pool_down hdown, State.freeCount,
    State.inUse_eq_held h.tracker.lists h.slots]
  dsimp only
  omega

theorem State.Sound.execLinkUp (h : s.Sound) : Leads (execLinkUp s) State.Sound := by
  unfold Machine.execLinkUp
  split
  next => exact leads_next h
  next hdown => exact leads_next (h.sessionBegins hdown)

/-! ## The local notice port (R132 to R134) -/

theorem State.Sound.answerBeat (h : s.Sound) (a : Option PortAnswer) : (s.answerBeat a).Sound := h.of_mu (by simp)

theorem State.Sound.writeWordZero (h : s.Sound) (enables : Nibble) (lanes : Word) (parity : Nibble) :
    (s.writeWordZero enables lanes parity).Sound := by
  unfold State.writeWordZero
  split
  · exact h.answerBeat _
  next hup =>
    split
    · exact h.answerBeat _
    · split
      · exact h.answerBeat _
      · refine State.Sound.answerBeat ?_ _
        exact h.of_frame ⟨rfl, rfl, rfl, rfl⟩ (.of_mu rfl) fun hdown => absurd (hup.symm.trans hdown) (by decide)

theorem State.Sound.execNoticePortWrite (h : s.Sound) (address : Word) (enables : Nibble) (lanes : Word)
    (parity : Nibble) : Leads (execNoticePortWrite address enables lanes parity s) State.Sound := by
  unfold Machine.execNoticePortWrite
  split
  · split
    · exact leads_next (h.writeWordZero _ _ _)
    · exact leads_next (h.answerBeat _)
  · exact leads_next (h.answerBeat _)

theorem State.Sound.execNoticePortRead (h : s.Sound) (address : Word) :
    Leads (execNoticePortRead address s) State.Sound := by
  unfold Machine.execNoticePortRead
  (repeat' split) <;> exact leads_next (h.answerBeat _)

/-! ## Management requests (R141, R142, R144) -/

/-- R141: the request that is executed waits in its slot. -/
theorem State.nextWaiting_some {r : MgmtRequest} (h : s.nextWaiting = some (k, r)) : s.mu.slots[k] = .waiting r := by
  unfold State.nextWaiting at h
  split at h
  next => cases h
  next =>
    obtain ⟨j, _, hj⟩ := List.exists_of_findSome?_eq_some h
    obtain ⟨r', hr', heq⟩ := Option.map_eq_some_iff.mp hj
    cases heq
    exact (Slot.waitingRequest_eq_some _ _).mp hr'

/-- R142: the reply becomes ready in the slot of its request. -/
theorem State.Sound.placeReply (h : s.Sound) {r : MgmtRequest} (hk : s.mu.slots[k] = .waiting r) (m : MgmtReply) :
    (s.placeReply k m).Sound :=
  h.of_frame (by simp) (State.placeReply_keepsSlots (by rw [hk]; rfl) m) fun _ => by simp

theorem Slot.not_holdsCommit_of_waiting {q : Slot} {r : MgmtRequest} (h : q = .waiting r) : q.holdsCommit = false := by
  rw [h]
  rfl

/-- R144: the report leaves the request in its slot, and the denial is placed there. -/
theorem State.Sound.denyRequest (h : s.Sound) {r : MgmtRequest} (hk : s.mu.slots[k] = .waiting r) :
    (s.denyRequest k r).Sound :=
  (h.report _).placeReply ((s.report_slot _ k (Slot.not_holdsCommit_of_waiting hk)).trans hk) _

/-- R141, R144: the request that a management command executes waits in its slot. -/
theorem State.Sound.executeIf (h : s.Sound) {sel : MgmtRequest → Bool} {body : Fin 2 → MgmtRequest → State → State}
    (hbody : ∀ k r, s.mu.slots[k] = .waiting r → (body k r s).Sound) :
    Leads (.next (s.executeIf sel body)) State.Sound := by
  refine leads_next ?_
  unfold State.executeIf
  split
  next => exact h
  next hnext =>
    have hk := State.nextWaiting_some hnext
    split
    · split
      · exact hbody _ _ hk
      · exact h.denyRequest hk
    · exact h

/-- R29, R156: the reply is held back. -/
theorem State.Sound.holdSlot (h : s.Sound) {r : MgmtRequest} (hk : s.mu.slots[k] = .waiting r) :
    (s.holdSlot k r).Sound := by
  have hslot (j : Fin 2) : (s.holdSlot k r).mu.slots[j] = if j = k then .held r else s.mu.slots[j] :=
    set_getElem _ _ _ _
  refine h.of_frame ⟨rfl, rfl, rfl, rfl⟩ ⟨fun hs => ⟨hs.arrivalsNodup, fun j => ?_, hs.repliesNodup, fun j => ?_⟩, rfl,
    List.prefix_refl _, fun hfree => ?_⟩ fun _ => rfl
  · rw [hslot]
    refine (hs.arrivalsMem j).trans ?_
    split
    next hjk => rw [hjk, hk]; exact Iff.rfl
    next => exact Iff.rfl
  · rw [hslot]
    refine (hs.repliesMem j).trans ?_
    split
    next hjk => rw [hjk, hk]; exact iff_of_false nofun nofun
    next => exact Iff.rfl
  · rw [hfree k] at hk
    cases hk

theorem State.Sound.setPort (h : s.Sound) (p : PortState) : (s.setPort p).Sound :=
  h.of_frame (by simp) (.of_same ⟨rfl, rfl, rfl⟩) fun _ => rfl

theorem State.Sound.performOpen (h : s.Sound) {r : MgmtRequest} (hk : s.mu.slots[k] = .waiting r) :
    (s.performOpen k r).Sound := by
  have hopened := (h.setPort .opened).placeReply hk (doneReply [])
  unfold State.performOpen
  split
  · exact hopened
  · exact h.placeReply hk _
  · split
    · exact h.placeReply hk _
    · exact hopened

theorem State.Sound.performClose (h : s.Sound) {r : MgmtRequest} (hk : s.mu.slots[k] = .waiting r) :
    (s.performClose k r).Sound := by
  unfold State.performClose
  split
  · exact (h.setPort .closed).placeReply hk _
  all_goals exact h.placeReply hk _

/-- Table 11-8: no object is a slot. -/
theorem State.writeObject_slots (o : ObjectId) (w : Word) (s : State) :
    (s.writeObject o w).mu.slots = s.mu.slots ∧ (s.writeObject o w).mu.arrivals = s.mu.arrivals ∧
    (s.writeObject o w).mu.replies = s.mu.replies := by
  cases o <;> exact ⟨rfl, rfl, rfl⟩

/-- R146: the writes of objects keep a state sound, and every slot. -/
theorem State.Sound.writeObjects (h : s.Sound) (ws : List (ObjectId × Word)) :
    (s.writeObjects ws).Sound ∧ (s.writeObjects ws).mu.slots = s.mu.slots := by
  unfold State.writeObjects
  induction ws generalizing s with
  | nil => exact ⟨h, rfl⟩
  | cons ow ws ih =>
    obtain ⟨o, w⟩ := ow
    have hslots := s.writeObject_slots o w
    have hwritten : (s.writeObject o w).Sound := h.of_frame (by simp) (.of_same hslots) fun _ => by simp
    obtain ⟨hsound, hsame⟩ := ih hwritten
    exact ⟨hsound, hsame.trans hslots.1⟩

/-- R146, R153. -/
theorem State.Sound.performWrite (h : s.Sound) {r : MgmtRequest} (hk : s.mu.slots[k] = .waiting r) :
    (s.performWrite k r).Sound := by
  unfold State.performWrite
  split
  · exact h.placeReply hk _
  next ws _ =>
    obtain ⟨hwritten, hslots⟩ := h.writeObjects ws
    have hkept : (s.writeObjects ws).mu.slots[k] = .waiting r := by rw [hslots]; exact hk
    unfold State.haltIfEnabled
    split
    · exact hwritten.enterHalted.placeReply
        ((State.enterHalted_slot k _ (Slot.not_holdsCommit_of_waiting hkept)).trans hkept) _
    · exact hwritten.placeReply hkept _

theorem State.Sound.performCommit (h : s.Sound) {r : MgmtRequest} (hk : s.mu.slots[k] = .waiting r) :
    (s.performCommit k r).Sound := by
  have hswapped : s.swapBanks.Sound := h.of_mu (by simp)
  unfold State.performCommit
  split
  · exact h.placeReply hk _
  · split
    · exact h.placeReply hk _
    · split
      · exact hswapped.placeReply hk _
      · exact hswapped.holdSlot hk

theorem State.Sound.performDiscardStaging (h : s.Sound) {r : MgmtRequest} (hk : s.mu.slots[k] = .waiting r) :
    (s.performDiscardStaging k r).Sound := by
  have hcopied : State.Sound { s with wd := { s.wd with staging := s.wd.active } } :=
    h.of_mu ⟨rfl, rfl, rfl, rfl, rfl, rfl⟩
  exact hcopied.placeReply hk _

theorem State.Sound.performClearErrors (h : s.Sound) {r : MgmtRequest} (hk : s.mu.slots[k] = .waiting r) :
    (s.performClearErrors k r).Sound := by
  have hcleared : State.Sound { s with ecu := s.ecu.cleared } := h.of_mu ⟨rfl, rfl, rfl, rfl, rfl, rfl⟩
  unfold State.performClearErrors
  split
  · exact h.placeReply hk _
  · split
    · exact hcleared.placeReply hk _
    · exact h.placeReply hk _

/-! ## Resets (R156 to R158) -/

/-- R157: of the blocks only the Error Capture Unit and the port state are not those of a reset. -/
theorem State.partReset_sound (s : State) : s.partReset.Sound :=
  State.reset_sound.of_frame ⟨rfl, rfl, rfl, rfl⟩ (.of_same ⟨rfl, rfl, rfl⟩) fun _ => rfl

theorem State.Sound.performResetPart (h : s.Sound) {r : MgmtRequest} (hk : s.mu.slots[k] = .waiting r) :
    (s.performResetPart k r).Sound := by
  have hpending : State.Sound { s with mu := { s.mu with resetPending := true } } :=
    h.of_frame ⟨rfl, rfl, rfl, rfl⟩ (.of_same ⟨rfl, rfl, rfl⟩) fun _ => rfl
  unfold State.performResetPart
  split
  · exact s.partReset_sound
  all_goals exact hpending.holdSlot hk

theorem State.Sound.execResetPartTakesEffect (h : s.Sound) : Leads (execResetPartTakesEffect s) State.Sound := by
  unfold Machine.execResetPartTakesEffect
  split
  next => exact leads_next s.partReset_sound
  all_goals exact leads_next h

end

end Sys2Proof.Machine
end

section
/-! PROOF. Every command leads from a sound state to a sound state (O3). -/

namespace Sys2Proof.Machine

/-! ## Every command leads to a sound state -/

theorem exec_sound (c : Instr) {s : State} (h : s.Sound) : Leads (exec c s) State.Sound := by
  cases c with
  | powerOnReset => exact leads_next (State.reset_sound.of_mu ⟨rfl, rfl, rfl, rfl, rfl, rfl⟩)
  | linkUp => exact h.execLinkUp
  | lossOfLinkSignal => exact leads_next h.endSession
  | downstreamPacket words p => exact h.execDownstreamPacket words p
  | mgmtRead => exact h.executeIf fun _ _ hk => h.placeReply hk _
  | mgmtWrite => exact h.executeIf fun _ _ => h.performWrite
  | haltOnFatalEnable => exact h.executeIf fun _ _ => h.performWrite
  | openPort => exact h.executeIf fun _ _ => h.performOpen
  | closePort => exact h.executeIf fun _ _ => h.performClose
  | commit => exact h.executeIf fun _ _ => h.performCommit
  | discardStaging => exact h.executeIf fun _ _ => h.performDiscardStaging
  | clearErrors => exact h.executeIf fun _ _ => h.performClearErrors
  | resetPart => exact h.executeIf fun _ _ => h.performResetPart
  | unknownCommandCode => exact h.executeIf fun _ _ hk => h.placeReply hk _
  | resetPartTakesEffect => exact h.execResetPartTakesEffect
  | arbitrationDecision => exact h.execArbitrationDecision
  | busGrant => exact h.execBusGrant
  | ackAnswer lanes parity => exact h.execAckAnswer lanes parity
  | retryAnswer => exact h.execRetryAnswer
  | errorAnswer => exact h.execErrorAnswer
  | localAccessTimerExpiry => exact h.execLocalAccessTimerExpiry
  | backoffIntervalExpiry item => exact h.execBackoffIntervalExpiry item
  | transmitChoice => exact h.execTransmitChoice
  | responseSent => exact h.execResponseSent
  | mgmtReplySent => exact h.execMgmtReplySent
  | noticePortWrite address enables lanes parity => exact h.execNoticePortWrite address enables lanes parity
  | noticePortRead address => exact h.execNoticePortRead address
  | upstreamTransmissionEnds => exact h.execUpstreamTransmissionEnds

theorem Leads.answers {o : Host.Outcome State Fault Refusal} {P : State → Prop} (h : Leads o P) : Answers o P := by
  obtain ⟨t, rfl, ht⟩ := h
  exact (answers_next t P).mpr ht

/-- Settles O3: the law holds of the state with the rest of the commands, and each command keeps it. -/
theorem stepKeepsSound : Obligations.StepKeepsSound := by
  intro s t hs h
  unfold step at h
  split at h
  · cases h
    exact hs
  next c rest _ =>
    have hrest : (s.withPending rest).Sound := hs.of_mu ⟨rfl, rfl, rfl, rfl, rfl, rfl⟩
    exact (exec_sound c hrest).answers t h

end Sys2Proof.Machine
end

section
/-! PROOF. No command stops in a sound state, none but DOWNSTREAM_PACKET stops in any, and each leaves the commands that
wait alone (O2). A fault is for a received packet that finds no place, and in a sound state there is one. -/

namespace Sys2Proof.Machine

/-! ## The commands that wait (log entry 1) -/

/-- The commands that wait in `t` are those that wait in `s`. -/
def State.KeepsPending (s t : State) : Prop := t.pending = s.pending

section
variable {s : State}

theorem State.discardWrite_keepsPending (q : DataRequest) (o : DecodeOutcome) (s : State) :
    s.KeepsPending (s.discardWrite q o) := by
  cases o <;> simp [KeepsPending, discardWrite, reportRefusal, DecodeOutcome.errorKind]

theorem State.reportRefusal_keepsPending (posted : Bool) (q : DataRequest) (g : BitVec 8) (o : DecodeOutcome)
    (s : State) : s.KeepsPending (s.reportRefusal posted q g o) := by
  unfold KeepsPending reportRefusal
  split <;> simp

/-- R39: a posted write is taken, or the queue has no place. -/
theorem State.takePosted_ends (q : DataRequest) (s : State) :
    Leads (s.takePosted q) s.KeepsPending ∨ ∃ f, s.takePosted q = .fault f := by
  cases hd : decode s.mu.port s.wd.active q with
  | accepted p o =>
    simp only [takePosted, hd, appendRecord]
    split
    · exact .inl (leads_next rfl)
    · exact .inr ⟨_, rfl⟩
  | _ => exact .inl ⟨_, takePosted_refused hd rfl, s.discardWrite_keepsPending q _⟩

/-- R61: a request is discarded or allocated, or no entry is FREE. -/
theorem State.takeNonPosted_ends (q : DataRequest) (p : Fin 24) (s : State) :
    Leads (s.takeNonPosted q p) s.KeepsPending ∨ ∃ f, s.takeNonPosted q p = .fault f := by
  unfold takeNonPosted
  split
  · exact .inl (leads_next (by simp [KeepsPending]))
  · split
    next => exact .inr ⟨_, rfl⟩
    next i _ => exact .inl (leads_next ((State.reportRefusal_keepsPending _ _ _ _ _).trans (by simp)))

/-- R140: a request takes a slot, or none is FREE. -/
theorem State.takeManagement_ends (r : MgmtRequest) (s : State) :
    Leads (s.takeManagement r) s.KeepsPending ∨ ∃ f, s.takeManagement r = .fault f := by
  unfold takeManagement
  split
  · split
    · exact .inr ⟨_, rfl⟩
    · exact .inl (leads_next rfl)
  · exact .inl (leads_next rfl)

theorem State.route_ends (k : DownstreamKind) (h : Header) (data : List Word) (p : Fin 24) (s : State) :
    Leads (s.route k h data p) s.KeepsPending ∨ ∃ f, s.route k h data p = .fault f := by
  match k with
  | .data .writePosted => exact s.takePosted_ends _
  | .data .writeConfirmed => exact s.takeNonPosted_ends _ _
  | .data .read => exact s.takeNonPosted_ends _ _
  | .mgmt _ => exact s.takeManagement_ends _

/-- R163: DOWNSTREAM_PACKET answers a next state, or a packet that is routed finds no place. -/
theorem execDownstreamPacket_ends (words : List Word) (p : Fin 24) (s : State) :
    Leads (execDownstreamPacket words p s) s.KeepsPending ∨ ∃ f, execDownstreamPacket words p s = .fault f := by
  unfold execDownstreamPacket State.takePacket
  split
  · exact .inl (leads_next rfl)
  · split
    · exact .inl (leads_next (by simp [State.KeepsPending]))
    · split
      · exact .inl (leads_next (by simp [State.KeepsPending]))
      next k _ =>
        unfold State.chargePacket
        split
        · exact .inl (leads_next (by simp [State.KeepsPending]))
        · split
          · exact State.route_ends k _ _ p (s.consume k.pool)
          · exact .inl (leads_next (by simp [State.KeepsPending]))

/-! ### Management requests -/

/-- R141: a management command leaves the queue alone where its own effect does. -/
theorem State.executeIf_keepsPending {sel : MgmtRequest → Bool} {body : Fin 2 → MgmtRequest → State → State}
    (hbody : ∀ k r, s.KeepsPending (body k r s)) : Leads (.next (s.executeIf sel body)) s.KeepsPending :=
  leads_next (State.executeIf_induct (P := s.KeepsPending) rfl
    (fun k r => by simp [KeepsPending, denyRequest]) hbody)

theorem State.placeReply_keepsPending (k : Fin 2) (m : MgmtReply) (s : State) : s.KeepsPending (s.placeReply k m) := by
  simp [KeepsPending]

theorem State.writeObjects_keepsPending (ws : List (ObjectId × Word)) (s : State) :
    s.KeepsPending (s.writeObjects ws) := by
  unfold writeObjects
  induction ws generalizing s with
  | nil => rfl
  | cons ow ws ih => exact (ih _).trans (by simp)

theorem State.performWrite_keepsPending (k : Fin 2) (r : MgmtRequest) (s : State) :
    s.KeepsPending (s.performWrite k r) := by
  unfold performWrite
  split
  · exact s.placeReply_keepsPending k _
  next ws _ =>
    have hwritten : (s.writeObjects ws).pending = s.pending := s.writeObjects_keepsPending ws
    unfold haltIfEnabled
    split <;> simp [KeepsPending, hwritten]

theorem State.performOpen_keepsPending (k : Fin 2) (r : MgmtRequest) (s : State) :
    s.KeepsPending (s.performOpen k r) := by
  unfold performOpen KeepsPending
  (repeat' split) <;> simp

theorem State.performClose_keepsPending (k : Fin 2) (r : MgmtRequest) (s : State) :
    s.KeepsPending (s.performClose k r) := by
  unfold performClose KeepsPending
  split <;> simp

theorem State.performCommit_keepsPending (k : Fin 2) (r : MgmtRequest) (s : State) :
    s.KeepsPending (s.performCommit k r) := by
  unfold performCommit holdSlot KeepsPending
  (repeat' split) <;> simp

theorem State.performClearErrors_keepsPending (k : Fin 2) (r : MgmtRequest) (s : State) :
    s.KeepsPending (s.performClearErrors k r) := by
  unfold performClearErrors KeepsPending
  (repeat' split) <;> simp

theorem State.performResetPart_keepsPending (k : Fin 2) (r : MgmtRequest) (s : State) :
    s.KeepsPending (s.performResetPart k r) := by
  unfold performResetPart
  split <;> rfl

/-! ### The local bus and the upstream link -/

theorem State.takeAck_keepsPending (it : Item) (lanes : Word) (parity : Nibble) (s : State) :
    s.KeepsPending (s.takeAck it lanes parity) := by
  unfold takeAck endLastWord KeepsPending
  (repeat' split) <;> simp

theorem State.takeRetry_keepsPending (it : Item) (s : State) : s.KeepsPending (s.takeRetry it) := by
  unfold takeRetry retryWithin KeepsPending
  (repeat' split) <;> simp

theorem State.chooseUpstream_keepsPending (s : State) : s.KeepsPending s.chooseUpstream := by
  unfold chooseUpstream chooseData KeepsPending
  (repeat' split) <;> simp

theorem State.writeWordZero_keepsPending (enables : Nibble) (lanes : Word) (parity : Nibble) (s : State) :
    s.KeepsPending (s.writeWordZero enables lanes parity) := by
  unfold writeWordZero KeepsPending
  (repeat' split) <;> simp

/-! ## Every command -/

/-- R93 to R98: the commands that the transaction in progress waits for. -/
theorem execAnswer_keepsPending (s : State) :
    (∀ lanes parity, Leads (execAckAnswer lanes parity s) s.KeepsPending) ∧
    Leads (execRetryAnswer s) s.KeepsPending ∧ Leads (execErrorAnswer s) s.KeepsPending ∧
    Leads (execLocalAccessTimerExpiry s) s.KeepsPending := by
  unfold execAckAnswer execRetryAnswer execErrorAnswer execLocalAccessTimerExpiry
  refine ⟨fun lanes parity => ?_, ?_, ?_, ?_⟩ <;> split <;> refine leads_next ?_
  · exact s.takeAck_keepsPending _ lanes parity
  · rfl
  · exact s.takeRetry_keepsPending _
  · rfl
  · simp [State.KeepsPending]
  · rfl
  · simp [State.KeepsPending]
  · rfl

theorem execBackoffIntervalExpiry_keepsPending (item : BackoffItem) (s : State) :
    Leads (execBackoffIntervalExpiry item s) s.KeepsPending := by
  cases item <;> simp only [execBackoffIntervalExpiry] <;> split <;> exact leads_next (by simp [State.KeepsPending])

/-- R166: the ends of the transmissions. -/
theorem execTransmissionEnds_keepsPending (s : State) : Leads (execResponseSent s) s.KeepsPending ∧
    Leads (execMgmtReplySent s) s.KeepsPending ∧ Leads (execUpstreamTransmissionEnds s) s.KeepsPending := by
  unfold execResponseSent execMgmtReplySent execUpstreamTransmissionEnds
  refine ⟨?_, ?_, ?_⟩ <;> split <;> exact leads_next (by simp [State.KeepsPending])

theorem execArbitrationDecision_keepsPending (s : State) : Leads (execArbitrationDecision s) s.KeepsPending := by
  unfold execArbitrationDecision
  split <;> exact leads_next (by simp [State.KeepsPending])

theorem execBusGrant_keepsPending (s : State) : Leads (execBusGrant s) s.KeepsPending := by
  unfold execBusGrant State.beginOwning
  split <;> exact leads_next (by simp [State.KeepsPending])

theorem execTransmitChoice_keepsPending (s : State) : Leads (execTransmitChoice s) s.KeepsPending := by
  unfold execTransmitChoice
  split
  · exact leads_next s.chooseUpstream_keepsPending
  all_goals exact leads_next rfl

theorem execLinkUp_keepsPending (s : State) : Leads (execLinkUp s) s.KeepsPending := by
  unfold execLinkUp
  split <;> exact leads_next (by simp [State.KeepsPending])

theorem execResetPartTakesEffect_keepsPending (s : State) : Leads (execResetPartTakesEffect s) s.KeepsPending := by
  unfold execResetPartTakesEffect
  split <;> exact leads_next rfl

theorem execNoticePort_keepsPending (address : Word) (s : State) :
    (∀ enables lanes parity, Leads (execNoticePortWrite address enables lanes parity s) s.KeepsPending) ∧
    Leads (execNoticePortRead address s) s.KeepsPending := by
  unfold execNoticePortWrite execNoticePortRead
  refine ⟨fun enables lanes parity => ?_, ?_⟩ <;> split
  · split
    · exact leads_next (s.writeWordZero_keepsPending enables lanes parity)
    · exact leads_next rfl
  · exact leads_next rfl
  · split <;> exact leads_next rfl
  · exact leads_next rfl

/-- Log entry 13: a command answers a next state, with the same commands waiting, or it is DOWNSTREAM_PACKET and stops
with a fault. -/
theorem exec_ends (c : Instr) (s : State) : Leads (exec c s) s.KeepsPending ∨
    ((∃ words p, c = .downstreamPacket words p) ∧ ∃ f, exec c s = .fault f) := by
  obtain ⟨hack, hretry, herror, htimeout⟩ := execAnswer_keepsPending s
  obtain ⟨hresponse, hreply, hends⟩ := execTransmissionEnds_keepsPending s
  have hport (address : Word) := execNoticePort_keepsPending address s
  cases c with
  | downstreamPacket words p =>
    exact (execDownstreamPacket_ends words p s).imp_right fun hfault => ⟨⟨words, p, rfl⟩, hfault⟩
  | powerOnReset => exact .inl (leads_next rfl)
  | linkUp => exact .inl (execLinkUp_keepsPending s)
  | lossOfLinkSignal => exact .inl (leads_next (by simp [State.KeepsPending]))
  | mgmtRead => exact .inl (State.executeIf_keepsPending fun k _ => s.placeReply_keepsPending k _)
  | mgmtWrite => exact .inl (State.executeIf_keepsPending fun k r => s.performWrite_keepsPending k r)
  | haltOnFatalEnable => exact .inl (State.executeIf_keepsPending fun k r => s.performWrite_keepsPending k r)
  | openPort => exact .inl (State.executeIf_keepsPending fun k r => s.performOpen_keepsPending k r)
  | closePort => exact .inl (State.executeIf_keepsPending fun k r => s.performClose_keepsPending k r)
  | commit => exact .inl (State.executeIf_keepsPending fun k r => s.performCommit_keepsPending k r)
  | discardStaging => exact .inl (State.executeIf_keepsPending fun k _ => State.placeReply_keepsPending k _ _)
  | clearErrors => exact .inl (State.executeIf_keepsPending fun k r => s.performClearErrors_keepsPending k r)
  | resetPart => exact .inl (State.executeIf_keepsPending fun k r => s.performResetPart_keepsPending k r)
  | unknownCommandCode => exact .inl (State.executeIf_keepsPending fun k _ => s.placeReply_keepsPending k _)
  | resetPartTakesEffect => exact .inl (execResetPartTakesEffect_keepsPending s)
  | arbitrationDecision => exact .inl (execArbitrationDecision_keepsPending s)
  | busGrant => exact .inl (execBusGrant_keepsPending s)
  | ackAnswer lanes parity => exact .inl (hack lanes parity)
  | retryAnswer => exact .inl hretry
  | errorAnswer => exact .inl herror
  | localAccessTimerExpiry => exact .inl htimeout
  | backoffIntervalExpiry item => exact .inl (execBackoffIntervalExpiry_keepsPending item s)
  | transmitChoice => exact .inl (execTransmitChoice_keepsPending s)
  | responseSent => exact .inl hresponse
  | mgmtReplySent => exact .inl hreply
  | noticePortWrite address enables lanes parity => exact .inl ((hport address).1 enables lanes parity)
  | noticePortRead address => exact .inl (hport address).2
  | upstreamTransmissionEnds => exact .inl hends

end

/-- Settles O2: in a sound state the command leads to a sound state, which is no fault. -/
theorem soundStatesNeverStop : Obligations.SoundStatesNeverStop := by
  refine ⟨fun c s hs => ?_, fun c s => (exec_ends c s).imp_left fun ⟨t, ht, _⟩ => ⟨t, ht⟩⟩
  refine (exec_ends c s).resolve_right fun ⟨_, f, hfault⟩ => ?_
  obtain ⟨t, hnext, _⟩ := exec_sound c hs
  rw [hfault] at hnext
  cases hnext

end Sys2Proof.Machine
end
